-- ==== Sys2Proof/Word.lean ====
section
/-!
DEFINITION. The word types of the block: 32-bit registers and bus words, 8-bit carrier and payload bytes
(00_scope.md R4, R6; 10_state.md section 2). A single bit of a bit sequence is a `Bool` (00_scope.md R8).
-/

namespace Sys2Proof

/-- A 32-bit register, bus word, host byte address or command word (00_scope.md R4). -/
abbrev Word := BitVec 32

/-- A byte of CARRIER or PAYLOAD (20_memory.md R52, R53). -/
abbrev Byte := BitVec 8

end Sys2Proof
end

