-- ==== Sys2Proof/Syntax.lean ====
section
/-!
DEFINITION. The eight commands of command set 1 (30_encoding.md R81), one constructor per row of
spec/opcode_table.json. No command has an operand field: operands are fixed registers and memories (R84).
-/

namespace Sys2Proof

/-- A command of the block (30_encoding.md R80, R81). -/
inductive Instr where
  /-- NOP, word 0x00000000 (42_pipeline.md R145). -/
  | nop
  /-- FR_ENC, word 0x00000001: Framer.encode (40_framer.md R101). -/
  | frEnc
  /-- FR_DEC, word 0x00000002: Framer.decode (40_framer.md R103). -/
  | frDec
  /-- BC_WR, word 0x00000003: Bit Channel.write (41_bit_channel.md R121). -/
  | bcWr
  /-- BC_RD, word 0x00000004: Bit Channel.read (41_bit_channel.md R122). -/
  | bcRd
  /-- CAPACITY, word 0x00000010: the capacity query (42_pipeline.md R141). -/
  | capacity
  /-- ENCODE, word 0x00000011: capacity check, frame, write (42_pipeline.md R143). -/
  | encode
  /-- DECODE, word 0x00000012: read, parse (42_pipeline.md R144). -/
  | decode
deriving DecidableEq, Repr

end Sys2Proof
end

