-- ==== Sys2Proof/WellFormed.lean ====
section
/-!
DEFINITION. Well-formedness. A command carries no field, so every `Instr` is well formed; what can be ill
formed is a command WORD, by one of the two checks of 30_encoding.md R81 and R82: the reserved bits and the opcode.
-/

namespace Sys2Proof

/-- RSV, bits 31:8 of a command word, must be 0 (30_encoding.md R80). -/
def rsvClear (w : Word) : Bool := w.extractLsb' 8 24 == 0#24

/-- OP, bits 7:0 of a command word, is one of the eight assigned opcodes (30_encoding.md R81). -/
def opcodeAssigned (w : Word) : Bool :=
  [0x00#8, 0x01#8, 0x02#8, 0x03#8, 0x04#8, 0x10#8, 0x11#8, 0x12#8].contains (w.extractLsb' 0 8)

/-- The legal command words: reserved bits clear and an assigned opcode (30_encoding.md R81, R82). -/
def wordWellFormed (w : Word) : Bool := rsvClear w && opcodeAssigned w

/-- A command has no operand field to check: its operands are fixed (30_encoding.md R84, R85). -/
def Instr.wf : Instr → Bool
  | .nop => true
  | .frEnc => true
  | .frDec => true
  | .bcWr => true
  | .bcRd => true
  | .capacity => true
  | .encode => true
  | .decode => true

end Sys2Proof
end

