-- ==== Sys2Proof/Decode.lean ====
section
/-!
DEFINITION. Decoding and encoding of command words (30_encoding.md R80 to R83, R85). One command is one 32-bit
word, the data of a Write32 to CMD; register bit i is bus data bit i (20_memory.md R58), so no byte order arises.
-/

namespace Sys2Proof

/-- Why a command word is illegal (30_encoding.md R82). -/
inductive DecodeError where
  /-- Some bit of `w[31:8]` is 1. -/
  | reservedBitsSet
  /-- `w[7:0]` is none of the eight opcodes of R81. -/
  | unassignedOpcode
deriving DecidableEq, Repr

/-- OP, bits 7:0 (30_encoding.md R80). -/
def opField (w : Word) : BitVec 8 := w.extractLsb' 0 8

/-- RSV, bits 31:8 (30_encoding.md R80). -/
def rsvField (w : Word) : BitVec 24 := w.extractLsb' 8 24

/-- The opcode map, rows two to nine and the last of 30_encoding.md R81. -/
def decodeOpcode (op : BitVec 8) : Except DecodeError Instr :=
  if op = 0x00#8 then .ok .nop
  else if op = 0x01#8 then .ok .frEnc
  else if op = 0x02#8 then .ok .frDec
  else if op = 0x03#8 then .ok .bcWr
  else if op = 0x04#8 then .ok .bcRd
  else if op = 0x10#8 then .ok .capacity
  else if op = 0x11#8 then .ok .encode
  else if op = 0x12#8 then .ok .decode
  else .error .unassignedOpcode

/-- The Engine's decoding of a command word: the first matching row of 30_encoding.md R81. -/
def decodeCommand (w : Word) : Except DecodeError Instr :=
  if rsvField w ≠ 0#24 then .error .reservedBitsSet else decodeOpcode (opField w)

/-- The opcode of a command (30_encoding.md R81). -/
def opcodeOf : Instr → BitVec 8
  | .nop => 0x00#8
  | .frEnc => 0x01#8
  | .frDec => 0x02#8
  | .bcWr => 0x03#8
  | .bcRd => 0x04#8
  | .capacity => 0x10#8
  | .encode => 0x11#8
  | .decode => 0x12#8

/-- The command word of a command: RSV = 0 above its opcode (30_encoding.md R80, R81). -/
def encodeCommand (i : Instr) : Word := 0#24 ++ opcodeOf i

/-- The command word whose low `nbits` bits are those of `w`, every bit above them 0. -/
def tableWord (nbits w : Nat) : Word := BitVec.ofNat 32 (w % 2 ^ nbits)

/-- What the decoder reads from an opcode-table word: one command is exactly one 32-bit word (30_encoding.md R80),
so a table word with a bit at or above bit 32 is no command. -/
def decodeTableWord (nbits w : Nat) : Option Instr :=
  if 2 ^ 32 ≤ w % 2 ^ nbits then none
  else
    match decodeCommand (tableWord nbits w) with
    | .ok i => some i
    | .error _ => none

end Sys2Proof
end

