-- ==== Sys2Proof/Config.lean ====
section
/-!
DEFINITION. What an instance fixes and what the spec leaves free. The OPEN parameters of 00_scope.md R4 and the
"any value" draws of 93_implementation_defined.md U1 and U3 are opaque constants with no body: nothing can be proved of
their values beyond the stated ranges. The fixed parameters of R4 are numbers.
-/

namespace Sys2Proof

/-! ### Fixed parameters (00_scope.md R4) -/

/-- MARKER_LEN, the marker's length in bits. -/
def Config.markerLen : Nat := 32

/-- LEN_BITS, the length field's width in bits. -/
def Config.lenBits : Nat := 16

/-- HEADER_BITS = 32 + 16. -/
def Config.headerBits : Nat := 48

/-- PAYLOAD_MAX and PAYLOAD_BYTES: the longest payload and the size of PAYLOAD memory. -/
def Config.payloadBytes : Nat := 65535

/-- FRAME_MAX_BITS = 48 + 8 * 65535, the longest frame. -/
def Config.frameMaxBits : Nat := 524328

/-- The largest CARRIER_MAX an instance may have, 2^31. -/
def Config.carrierLimit : Nat := 2 ^ 31

/-- The largest BITBUF_DEPTH an instance may have, 2^24. -/
def Config.bitbufLimit : Nat := 2 ^ 24

/-! ### OPEN parameters (00_scope.md R4; 93_implementation_defined.md U4, U5); log entry 3 -/

/-- `MARKER_BITS` as the MARKER register shows it: bit `31 - k` is `MARKER_BITS[k]` (10_state.md R21). -/
opaque Config.marker : Word

/-- `CARRIER_MAX - 1`, any number below 2^31. -/
opaque Config.carrierMaxLessOne : Fin (2147483647 + 1)

/-- `BITBUF_DEPTH - 524328`, any number up to 2^24 - 524328. -/
opaque Config.bitbufExtra : Fin (16252888 + 1)

/-- `CARRIER_MAX`, an integer with 1 ≤ CARRIER_MAX ≤ 2^31. -/
def Config.carrierMax : Nat := Config.carrierMaxLessOne.val + 1

/-- `BITBUF_DEPTH`, an integer with 524328 ≤ BITBUF_DEPTH ≤ 2^24. -/
def Config.bitbufDepth : Nat := Config.bitbufExtra.val + 524328

/-! ### Free values (93_implementation_defined.md U1, U3); log entries 4 and 5 -/

/-- What CARRIER byte `i` holds after the reset numbered `epoch`, until it is written (U1). -/
opaque Config.carrierPowerUp (epoch i : Nat) : Byte

/-- What PAYLOAD byte `j` holds after the reset numbered `epoch`, until it is written (U1). -/
opaque Config.payloadPowerUp (epoch j : Nat) : Byte

/-- What BITBUF bit `k` holds after the reset numbered `epoch`, until it is written (U1). -/
opaque Config.bitbufPowerUp (epoch k : Nat) : Bool

/-- The value the `n`-th unspecified register read gives (U3: a fresh draw for each read). -/
opaque Config.busyRead (n : Nat) : Word

end Sys2Proof
end

