-- ==== Sys2Proof/Machine/State.lean ====
section
/-!
DEFINITION. The state of the block as plain data (10_state.md R20, R31, R36), the host's side of the bus
(20_memory.md R50), the reasons a step could stop, and the state after reset (10_state.md R38).
-/

namespace Sys2Proof.Machine

/-- The result codes of STATUS.ERR (60_exceptions.md R160). -/
inductive ErrCode where
  /-- 0: every command that ends in `finish`. -/
  | success
  /-- 1: FR_DEC, DECODE. -/
  | notSteganographic
  /-- 2: FR_DEC, DECODE. -/
  | malformedStream
  /-- 3: FR_DEC, DECODE. -/
  | truncatedPayload
  /-- 4: ENCODE. -/
  | capacityExceeded
  /-- 5: any illegal command word. -/
  | illegalCommand
  /-- 6: BC_WR. -/
  | contractViolation
deriving DecidableEq, Repr

/-- A host bus access (20_memory.md R50). -/
inductive Access where
  /-- `Read32(a)`. -/
  | read32 (a : Word)
  /-- `Write32(a, v)`. -/
  | write32 (a v : Word)
  /-- `Read8(a)`. -/
  | read8 (a : Word)
  /-- `Write8(a, v)`. -/
  | write8 (a : Word) (v : Byte)
deriving DecidableEq, Repr

/-- The response to a host bus access: `ok`, with data for a read, or `buserr`, with none (20_memory.md R50, R57). -/
inductive Response where
  /-- `ok` with the 32-bit data of a Read32. -/
  | data32 (v : Word)
  /-- `ok` with the 8-bit data of a Read8. -/
  | data8 (v : Byte)
  /-- `ok` for a write. -/
  | written
  /-- `buserr`. -/
  | buserr
deriving DecidableEq, Repr

/-- One turn of the total order of events (00_scope.md R11, 20_memory.md R62): the host performs an access, the host
drives reset, or the host does nothing and the Engine steps if it can. Log entry 1. -/
inductive Turn where
  /-- The host performs one bus access. -/
  | access (x : Access)
  /-- The host drives RESET (70_reset_and_hazards.md R190). -/
  | reset
  /-- The turn is the Engine's (10_state.md R33). -/
  | engine
deriving DecidableEq, Repr

/-- The reasons the machine stops with a fault: none. Every command completes and a refused bus access is a response
(93_implementation_defined.md: "No behaviour of the block is stuck"; 60_exceptions.md R165). Log entry 7. -/
inductive Fault where
deriving DecidableEq, Repr

/-- The reasons the model has no meaning for a step. -/
inductive Refusal where
  /-- Raised by `exec` alone, for an instruction that has no meaning yet; safe. No arm raises it. -/
  | notModelled (mnemonic : String)
deriving DecidableEq, Repr

/-- The block's state. STATUS.BUSY is 1 exactly when `pend` holds a word (10_state.md R31), so it has no field of its
own; CMD has no storage (R22). The memories list what has been written since reset (see Machine/Ops.lean). -/
structure State where
  /-- MARKER, the constant `MARKER_BITS` word (10_state.md R21). -/
  marker : Word
  /-- CARRIER_MAX, constant (10_state.md R28). -/
  carrierMax : Word
  /-- BITBUF_DEPTH, constant (10_state.md R29). -/
  bitbufDepth : Word
  /-- STATUS.ERR (10_state.md R23). -/
  err : ErrCode
  /-- LEN[15:0]; LEN[31:16] reads 0 (10_state.md R24). -/
  len : BitVec 16
  /-- CLEN (10_state.md R25). -/
  clen : Word
  /-- BITLEN (10_state.md R26). -/
  bitlen : Word
  /-- CAP, signed (10_state.md R27). -/
  cap : Word
  /-- PEND, the command in flight (10_state.md R31). -/
  pend : Option Word
  /-- CARRIER: (index, byte) pairs (20_memory.md R52). -/
  carrier : List Host.Cell
  /-- PAYLOAD: (index, byte) pairs (20_memory.md R53). -/
  payload : List Host.Cell
  /-- BITBUF: (index, bit) pairs (20_memory.md R54). -/
  bitbuf : List (Nat × Bool)
  /-- The model's own: how many resets there have been, which selects the memories' free contents. Log entry 4. -/
  epoch : Nat
  /-- The model's own: how many unspecified reads have been answered. Log entry 5. -/
  draws : Nat
  /-- The model's own: the turns to come, the next one first. Log entry 1. -/
  agenda : List Turn
  /-- The model's own: the responses given to the host, the newest first. Log entry 2. -/
  responses : List Response
deriving DecidableEq, Repr

/-- The state right after reset (10_state.md R38). The registers have the values of R38, MARKER, CARRIER_MAX and
BITBUF_DEPTH those of the instance's parameters; no memory element has been written, so each reads as its free value.
The model's own fields start at 0 or empty (DESIGN CHOICE, log entry 9). -/
def State.reset : State where
  marker := Config.marker
  carrierMax := BitVec.ofNat 32 Config.carrierMax
  bitbufDepth := BitVec.ofNat 32 Config.bitbufDepth
  err := .success
  len := 0#16
  clen := 0#32
  bitlen := 0#32
  cap := 0xFFFFFFFA#32
  pend := none
  carrier := []
  payload := []
  bitbuf := []
  epoch := 0
  draws := 0
  agenda := []
  responses := []

end Sys2Proof.Machine
end

