-- ==== Sys2Proof/Machine/Ops.lean ====
section
/-!
DEFINITION. The named operations over the memories, and the ends of a command: `finish`, `raise` (which is how this
block takes an error: 00_scope.md R10, 60_exceptions.md R165), issue (10_state.md R32) and reset (70_reset_and_hazards.md R190).

A memory is a list of (index, value) pairs with strictly rising indices, and no pair repeats what an unlisted element
reads as (`fill`), so that equal memories are equal lists.
-/

namespace Sys2Proof.Machine

/-! ### One memory -/

/-- Element `a`: the value listed for it, else what an unlisted element reads as. -/
def Memory.read {α : Type} (fill : Nat → α) : List (Nat × α) → Nat → α
  | [], a => fill a
  | (k, v) :: m, a => if k = a then v else Memory.read fill m a

/-- List `v` for element `a`, at its place in the rising order. -/
def Memory.insert {α : Type} : List (Nat × α) → Nat → α → List (Nat × α)
  | [], a, v => [(a, v)]
  | (k, w) :: m, a, v =>
    if k < a then (k, w) :: Memory.insert m a v
    else if k = a then (a, v) :: m
    else (a, v) :: (k, w) :: m

/-- List nothing for element `a`. -/
def Memory.erase {α : Type} : List (Nat × α) → Nat → List (Nat × α)
  | [], _ => []
  | (k, w) :: m, a => if k = a then Memory.erase m a else (k, w) :: Memory.erase m a

/-- Write `v` to element `a`, keeping the canonical form: what equals the unlisted value is not listed. -/
def Memory.write {α : Type} [DecidableEq α] (fill : Nat → α) (m : List (Nat × α)) (a : Nat) (v : α) :
    List (Nat × α) :=
  if v = fill a then Memory.erase m a else Memory.insert m a v

/-- Write the values to consecutive elements from `a` on. -/
def Memory.writeSeq {α : Type} [DecidableEq α] (fill : Nat → α) :
    List (Nat × α) → Nat → List α → List (Nat × α)
  | m, _, [] => m
  | m, a, v :: vs => Memory.writeSeq fill (Memory.write fill m a v) (a + 1) vs

/-- Elements `0 .. n-1` in order. -/
def Memory.readSeq {α : Type} (fill : Nat → α) (m : List (Nat × α)) (n : Nat) : List α :=
  (List.range n).map (Memory.read fill m)

/-- The canonical form from lower bound `lo` on: indices rise strictly and no entry equals the unlisted value. -/
def Memory.wfFrom {α : Type} [DecidableEq α] (fill : Nat → α) : Nat → List (Nat × α) → Bool
  | _, [] => true
  | lo, (k, v) :: m => decide (lo ≤ k) && decide (v ≠ fill k) && Memory.wfFrom fill (k + 1) m

/-- The canonical form of a memory. -/
def Memory.wf {α : Type} [DecidableEq α] (fill : Nat → α) (m : List (Nat × α)) : Bool := Memory.wfFrom fill 0 m

/-- Every listed index is below the memory's size. -/
def Memory.within {α : Type} (size : Nat) (m : List (Nat × α)) : Bool := m.all fun c => decide (c.1 < size)

/-! ### The three memories -/

/-- What an unlisted CARRIER byte reads as: the free contents since the last reset (93_implementation_defined.md U1). -/
def State.carrierFill (s : State) : Nat → Byte := Config.carrierPowerUp s.epoch

/-- What an unlisted PAYLOAD byte reads as (93_implementation_defined.md U1). -/
def State.payloadFill (s : State) : Nat → Byte := Config.payloadPowerUp s.epoch

/-- What an unlisted BITBUF bit reads as (93_implementation_defined.md U1). -/
def State.bitbufFill (s : State) : Nat → Bool := Config.bitbufPowerUp s.epoch

/-- `C[i]` (00_scope.md R10). -/
def State.carrierByte (s : State) (i : Nat) : Byte := Memory.read s.carrierFill s.carrier i

/-- `P[j]` (00_scope.md R10). -/
def State.payloadByte (s : State) (j : Nat) : Byte := Memory.read s.payloadFill s.payload j

/-- `B[k]` (00_scope.md R10). -/
def State.bit (s : State) (k : Nat) : Bool := Memory.read s.bitbufFill s.bitbuf k

/-- `C[i] <- v`. -/
def State.setCarrierByte (s : State) (i : Nat) (v : Byte) : State :=
  { s with carrier := Memory.write s.carrierFill s.carrier i v }

/-- `P[j] <- v`. -/
def State.setPayloadByte (s : State) (j : Nat) (v : Byte) : State :=
  { s with payload := Memory.write s.payloadFill s.payload j v }

/-- `B[k] <- b`. -/
def State.setBit (s : State) (k : Nat) (b : Bool) : State :=
  { s with bitbuf := Memory.write s.bitbufFill s.bitbuf k b }

/-- `for i: C[i] <- vs[i]`. -/
def State.writeCarrier (s : State) (vs : List Byte) : State :=
  { s with carrier := Memory.writeSeq s.carrierFill s.carrier 0 vs }

/-- `for j: P[j] <- vs[j]`. -/
def State.writePayload (s : State) (vs : List Byte) : State :=
  { s with payload := Memory.writeSeq s.payloadFill s.payload 0 vs }

/-- `for k: B[k] <- bs[k]`. -/
def State.writeBits (s : State) (bs : List Bool) : State :=
  { s with bitbuf := Memory.writeSeq s.bitbufFill s.bitbuf 0 bs }

/-! ### The registers a command or the host writes -/

/-- `LEN <- n` (10_state.md R24). -/
def State.setLen (s : State) (n : BitVec 16) : State := { s with len := n }

/-- `CLEN <- v` (10_state.md R25). -/
def State.setClen (s : State) (v : Word) : State := { s with clen := v }

/-- `BITLEN <- v` (10_state.md R26). -/
def State.setBitlen (s : State) (v : Word) : State := { s with bitlen := v }

/-- `CAP <- v` (10_state.md R27). -/
def State.setCap (s : State) (v : Word) : State := { s with cap := v }

/-! ### The life cycle of a command -/

/-- Issue: `PEND <- w`, `STATUS.BUSY <- 1`, `STATUS.ERR <- 0`, and nothing else (10_state.md R32). -/
def State.issue (s : State) (w : Word) : State := { s with pend := some w, err := .success }

/-- `finish`: ERR <- 0 and the command completes: `PEND <- none`, `BUSY <- 0` (00_scope.md R10, 10_state.md R33).
It is applied to the state with the command's staged writes, which it commits. -/
def State.finish (s : State) : State := { s with err := .success, pend := none }

/-- `raise e`: ERR <- code(e) and the command completes (00_scope.md R10, 10_state.md R33). It is applied to the state
at issue, so the staged writes are discarded (60_exceptions.md R162). This is the block's one way to take an error: there
is no trap entry (R165). -/
def State.raise (s : State) (e : ErrCode) : State := { s with err := e, pend := none }

/-- The completion of an illegal command word: `raise IllegalCommand` (30_encoding.md R82). -/
def State.rejectWord (s : State) : State := s.raise .illegalCommand

/-- Reset (70_reset_and_hazards.md R190, R191; 10_state.md R38): the registers take their reset values, the constants
stay, a command in flight is abandoned, and every memory element takes a fresh unspecified value (the contents numbered by the
new epoch). The model's own record of the host (agenda, responses, draws) is no state of the block and stays (log entry 14). -/
def State.resetBlock (s : State) : State :=
  { s with
    err := .success, len := 0#16, clen := 0#32, bitlen := 0#32, cap := 0xFFFFFFFA#32, pend := none
    carrier := [], payload := [], bitbuf := [], epoch := s.epoch + 1 }

/-! ### The host's side -/

/-- The turn is left to the Engine: neither a bus access nor a reset of the host's (00_scope.md R11). -/
def Turn.isEngine : Turn → Bool
  | .engine => true
  | .access _ => false
  | .reset => false

/-- The host has performed its last access and its last reset: every turn still to come is the Engine's
(70_reset_and_hazards.md R199). -/
def State.hostDone (s : State) : Bool := s.agenda.all Turn.isEngine

/-- Record a response to the host (20_memory.md R50). -/
def State.respond (s : State) (r : Response) : State := { s with responses := r :: s.responses }

/-- Answer a read whose value is unspecified: a fresh draw (93_implementation_defined.md U3). -/
def State.respondUnspecified (s : State) : State :=
  { s with responses := .data32 (Config.busyRead s.draws) :: s.responses, draws := s.draws + 1 }

end Sys2Proof.Machine
end

