-- ==== Sys2Proof/Machine/Operands.lean ====
section
/-!
DEFINITION. Every form in which a value is read or addressed: bit sequences MSB-first (00_scope.md R8), the LSB of a
carrier byte (41_bit_channel.md R120), the operands a command reads (30_encoding.md R84), and the host address map (20_memory.md R51).
-/

namespace Sys2Proof.Machine

/-! ### Bit sequences -/

/-- `bits_msb_first(v, w)`: element `k` is `v[w-1-k]` (00_scope.md R8). -/
def bitsMsbFirst {w : Nat} (v : BitVec w) : List Bool := (List.range w).map fun k => v.getLsbD (w - 1 - k)

/-- `value_msb_first(s)`: the sum of `s[k] * 2^(len(s)-1-k)` (00_scope.md R8). -/
def valueMsbFirst : List Bool → Nat
  | [] => 0
  | b :: s => b.toNat * 2 ^ s.length + valueMsbFirst s

/-- `s[a..b]`: elements `a` up to but excluding `b` (00_scope.md R8). -/
def slice (s : List Bool) (a b : Nat) : List Bool := (s.drop a).take (b - a)

/-! ### The LSB of a carrier byte -/

/-- `lsb_put(c, b)` = c[7:1] above b (41_bit_channel.md R120). -/
def lsbPut (c : Byte) (b : Bool) : Byte := c.extractLsb' 1 7 ++ BitVec.ofBool b

/-- `lsb_get(c)` = c[0] (41_bit_channel.md R120). -/
def lsbGet (c : Byte) : Bool := c.getLsbD 0

/-! ### What a command reads -/

/-- `MARKER_BITS`: element `k` is bit `31 - k` of MARKER (10_state.md R21). -/
def State.markerBits (s : State) : List Bool := bitsMsbFirst s.marker

/-- `C[0..n-1]`. -/
def State.carrierBytes (s : State) (n : Nat) : List Byte := Memory.readSeq s.carrierFill s.carrier n

/-- `P[0..n-1]`. -/
def State.payloadBytes (s : State) (n : Nat) : List Byte := Memory.readSeq s.payloadFill s.payload n

/-- `B[0..n-1]`. -/
def State.bits (s : State) (n : Nat) : List Bool := Memory.readSeq s.bitbufFill s.bitbuf n

/-- `lsb_get(C[0]) ++ ... ++ lsb_get(C[n-1])` (41_bit_channel.md R122, 42_pipeline.md R144). -/
def State.carrierLsbs (s : State) (n : Nat) : List Bool := (s.carrierBytes n).map lsbGet

/-! ### The host address map -/

/-- The registers of 10_state.md section 2. -/
inductive Reg where
  | marker | cmd | status | len | clen | bitlen | cap | carrierMax | bitbufDepth
deriving DecidableEq, Repr

/-- What stands at a host byte address (20_memory.md R51). -/
inductive Region where
  /-- A register, at its aligned offset. -/
  | register (r : Reg)
  /-- PAYLOAD byte `j`. -/
  | payload (j : Nat)
  /-- BITBUF bit `k`. -/
  | bitbuf (k : Nat)
  /-- CARRIER byte `i`. -/
  | carrier (i : Nat)
  /-- A reserved address, or an address inside the register window that is not a register's aligned offset. -/
  | none
deriving DecidableEq, Repr

/-- The register at a byte offset of the register window (10_state.md section 2); an offset that is misaligned
(20_memory.md R56) or reserved (10_state.md R30) has none. -/
def regAt (off : Nat) : Option Reg :=
  if off = 0x000 then some .marker
  else if off = 0x004 then some .cmd
  else if off = 0x008 then some .status
  else if off = 0x00C then some .len
  else if off = 0x010 then some .clen
  else if off = 0x014 then some .bitlen
  else if off = 0x018 then some .cap
  else if off = 0x01C then some .carrierMax
  else if off = 0x020 then some .bitbufDepth
  else Option.none

/-- The block's whole address map (20_memory.md R51). -/
def State.regionAt (s : State) (a : Word) : Region :=
  let n := a.toNat
  if n < 0x00000100 then
    match regAt n with
    | some r => .register r
    | Option.none => .none
  else if 0x00010000 ≤ n ∧ n < 0x0001FFFF then .payload (n - 0x00010000)
  else if 0x01000000 ≤ n ∧ n < 0x02000000 ∧ n - 0x01000000 < s.bitbufDepth.toNat then .bitbuf (n - 0x01000000)
  else if 0x80000000 ≤ n ∧ n - 0x80000000 < s.carrierMax.toNat then .carrier (n - 0x80000000)
  else .none

end Sys2Proof.Machine
end

