-- ==== Sys2Proof/Machine/Flags.lean ====
section
/-!
DEFINITION. The flags of the block: STATUS.BUSY and STATUS.ERR, and no others (10_state.md R23, R35).
-/

namespace Sys2Proof.Machine

/-- code(E): the value ERR takes (60_exceptions.md R160). -/
def errValue : ErrCode → BitVec 4
  | .success => 0#4
  | .notSteganographic => 1#4
  | .malformedStream => 2#4
  | .truncatedPayload => 3#4
  | .capacityExceeded => 4#4
  | .illegalCommand => 5#4
  | .contractViolation => 6#4

/-- STATUS.BUSY: a command is in flight, that is PEND holds a word (10_state.md R23, R31). -/
def State.busy (s : State) : Bool := s.pend.isSome

/-- STATUS as a word: bit 0 BUSY, bits 3:1 zero, bits 7:4 ERR, bits 31:8 zero (10_state.md R23, R30). -/
def State.status (s : State) : Word := 0#24 ++ errValue s.err ++ 0#3 ++ BitVec.ofBool s.busy

end Sys2Proof.Machine
end

