-- ==== Sys2Proof/Machine/Bus.lean ====
section
/-!
DEFINITION. Host bus accesses (20_memory.md R50 to R59; 10_state.md R21 to R30), with BUSY = 0 and while a command
is in flight (70_reset_and_hazards.md R194).
-/

namespace Sys2Proof.Machine

/-- A host read of LEN, BITLEN or CAP: the register, or an unspecified value while busy (10_state.md R24, R26, R27). -/
def State.respondVolatile (s : State) (v : Word) : State :=
  if s.busy then s.respondUnspecified else s.respond (.data32 v)

/-- Read32 of a register (10_state.md R21 to R29). -/
def State.readReg (s : State) : Reg → State
  | .marker => s.respond (.data32 s.marker)
  | .cmd => s.respond (.data32 0#32)
  | .status => s.respond (.data32 s.status)
  | .len => s.respondVolatile (s.len.setWidth 32)
  | .clen => s.respond (.data32 s.clen)
  | .bitlen => s.respondVolatile s.bitlen
  | .cap => s.respondVolatile s.cap
  | .carrierMax => s.respond (.data32 s.carrierMax)
  | .bitbufDepth => s.respond (.data32 s.bitbufDepth)

/-- Write32 to a register while no command is in flight: CMD issues the word (10_state.md R22), LEN, CLEN and BITLEN
take a legal value and refuse another (R24 to R26), the others refuse every write (R21, R23, R27 to R29). -/
def State.writeReg (s : State) (r : Reg) (v : Word) : State :=
  match r with
  | .cmd => (s.issue v).respond .written
  | .len => if v.extractLsb' 16 16 = 0#16 then (s.setLen (v.setWidth 16)).respond .written else s.respond .buserr
  | .clen => if v.toNat ≤ s.carrierMax.toNat then (s.setClen v).respond .written else s.respond .buserr
  | .bitlen => if v.toNat ≤ s.bitbufDepth.toNat then (s.setBitlen v).respond .written else s.respond .buserr
  | .marker => s.respond .buserr
  | .status => s.respond .buserr
  | .cap => s.respond .buserr
  | .carrierMax => s.respond .buserr
  | .bitbufDepth => s.respond .buserr

/-- Read32: only a register, at its aligned address (20_memory.md R51, R55, R56). -/
def State.read32 (s : State) (a : Word) : State :=
  match s.regionAt a with
  | .register r => s.readReg r
  | .payload _ => s.respond .buserr
  | .bitbuf _ => s.respond .buserr
  | .carrier _ => s.respond .buserr
  | .none => s.respond .buserr

/-- Write32: only a register, at its aligned address, and never while busy (20_memory.md R55, R56;
70_reset_and_hazards.md R194). -/
def State.write32 (s : State) (a v : Word) : State :=
  if s.busy then s.respond .buserr
  else
    match s.regionAt a with
    | .register r => s.writeReg r v
    | .payload _ => s.respond .buserr
    | .bitbuf _ => s.respond .buserr
    | .carrier _ => s.respond .buserr
    | .none => s.respond .buserr

/-- The host's byte view of a BITBUF bit: 0x00 or 0x01 (20_memory.md R54). -/
def bitView (b : Bool) : Byte := if b then 0x01#8 else 0x00#8

/-- Read8: only a memory window, and never while busy (20_memory.md R54, R55; 70_reset_and_hazards.md R194). -/
def State.read8 (s : State) (a : Word) : State :=
  if s.busy then s.respond .buserr
  else
    match s.regionAt a with
    | .register _ => s.respond .buserr
    | .payload j => s.respond (.data8 (s.payloadByte j))
    | .bitbuf k => s.respond (.data8 (bitView (s.bit k)))
    | .carrier i => s.respond (.data8 (s.carrierByte i))
    | .none => s.respond .buserr

/-- Write8: only a memory window, and never while busy; BITBUF takes bit 0 (20_memory.md R54, R55;
70_reset_and_hazards.md R194). -/
def State.write8 (s : State) (a : Word) (v : Byte) : State :=
  if s.busy then s.respond .buserr
  else
    match s.regionAt a with
    | .register _ => s.respond .buserr
    | .payload j => (s.setPayloadByte j v).respond .written
    | .bitbuf k => (s.setBit k (v.getLsbD 0)).respond .written
    | .carrier i => (s.setCarrierByte i v).respond .written
    | .none => s.respond .buserr

/-- One host bus access (20_memory.md R50). -/
def State.hostAccess (s : State) : Access → State
  | .read32 a => s.read32 a
  | .write32 a v => s.write32 a v
  | .read8 a => s.read8 a
  | .write8 a v => s.write8 a v

end Sys2Proof.Machine
end

