-- ==== Sys2Proof/Machine/Framer.lean ====
section
/-!
DEFINITION. The Framer (40_framer.md): the functions `frame` and `parse`, and the commands FR_ENC and FR_DEC.
-/

namespace Sys2Proof.Machine

/-- `frame(n, p)`: marker, length MSB-first, then each payload byte MSB-first (40_framer.md R100, 30_encoding.md R86). -/
def frame (markerBits : List Bool) (n : BitVec 16) (p : List Byte) : List Bool :=
  markerBits ++ bitsMsbFirst n ++ p.flatMap fun c => bitsMsbFirst c

/-- The length of a frame of `n` payload bytes, 48 + 8n (30_encoding.md R87). -/
def frameBits (n : Nat) : Nat := Config.headerBits + 8 * n

/-- `parse(s)`: the checks in the source's order, the first that fails deciding (40_framer.md R102). -/
def parse (markerBits : List Bool) (s : List Bool) : Except ErrCode (BitVec 16 × List Byte) :=
  if s.length < Config.headerBits then .error .malformedStream
  else if slice s 0 32 ≠ markerBits then .error .notSteganographic
  else
    let n := valueMsbFirst (slice s 32 48)
    if s.length < frameBits n then .error .truncatedPayload
    else .ok (BitVec.ofNat 16 n,
      (List.range n).map fun j => BitVec.ofNat 8 (valueMsbFirst (slice s (48 + 8 * j) (48 + 8 * j + 8))))

/-- What FR_DEC and DECODE do with the result of `parse`: on an error raise it; else write P[0..n-1] and LEN and
finish (40_framer.md R103, 42_pipeline.md R144). -/
def State.acceptParsed (s : State) : Except ErrCode (BitVec 16 × List Byte) → State
  | .error e => s.raise e
  | .ok (n, q) => ((s.writePayload q).setLen n).finish

/-- FR_ENC (40_framer.md R101). -/
def execFrEnc (s : State) : Host.Outcome State Fault Refusal :=
  let F := frame s.markerBits s.len (s.payloadBytes s.len.toNat)
  .next ((s.writeBits F).setBitlen (BitVec.ofNat 32 (frameBits s.len.toNat))).finish

/-- FR_DEC (40_framer.md R103). -/
def execFrDec (s : State) : Host.Outcome State Fault Refusal :=
  .next (s.acceptParsed (parse s.markerBits (s.bits s.bitlen.toNat)))

end Sys2Proof.Machine
end

