-- ==== Sys2Proof/Machine/BitChannel.lean ====
section
/-!
DEFINITION. The Bit Channel (41_bit_channel.md): the commands BC_WR and BC_RD.
-/

namespace Sys2Proof.Machine

/-- `for i: C[i] <- lsb_put(C[i], bs[i])`, all carrier bytes read before any is written (41_bit_channel.md R121,
42_pipeline.md R143, 00_scope.md R10). -/
def State.putLsbs (s : State) (bs : List Bool) : State :=
  s.writeCarrier (List.zipWith lsbPut (s.carrierBytes bs.length) bs)

/-- BC_WR (41_bit_channel.md R121). -/
def execBcWr (s : State) : Host.Outcome State Fault Refusal :=
  if s.clen.toNat < s.bitlen.toNat then .next (s.raise .contractViolation)
  else .next (s.putLsbs (s.bits s.bitlen.toNat)).finish

/-- `min(CLEN, BITBUF_DEPTH)`, how many bits BC_RD moves (41_bit_channel.md R122). -/
def State.bcRdCount (s : State) : Nat := min s.clen.toNat s.bitbufDepth.toNat

/-- BC_RD (41_bit_channel.md R122). -/
def execBcRd (s : State) : Host.Outcome State Fault Refusal :=
  .next ((s.writeBits (s.carrierLsbs s.bcRdCount)).setBitlen (BitVec.ofNat 32 s.bcRdCount)).finish

end Sys2Proof.Machine
end

