-- ==== Sys2Proof/Machine/Pipeline.lean ====
section
/-!
DEFINITION. The pipeline commands CAPACITY, ENCODE, DECODE and NOP (42_pipeline.md).
-/

namespace Sys2Proof.Machine

/-- `available(c) = floor(c / 8) - 6`, negative when c < 48 (42_pipeline.md R140). -/
def available (c : Nat) : Int := (c / 8 : Nat) - 6

/-- CAPACITY (42_pipeline.md R141): CAP as a two's-complement word (00_scope.md R9). -/
def execCapacity (s : State) : Host.Outcome State Fault Refusal :=
  .next (s.setCap (BitVec.ofInt 32 (available s.clen.toNat))).finish

/-- ENCODE (42_pipeline.md R143): the check uses CLEN, not CAP, and precedes every write. -/
def execEncode (s : State) : Host.Outcome State Fault Refusal :=
  if s.clen.toNat < frameBits s.len.toNat then .next (s.raise .capacityExceeded)
  else .next (s.putLsbs (frame s.markerBits s.len (s.payloadBytes s.len.toNat))).finish

/-- DECODE (42_pipeline.md R144): all CLEN carrier LSBs are parsed, without BITBUF (R146). -/
def execDecode (s : State) : Host.Outcome State Fault Refusal :=
  .next (s.acceptParsed (parse s.markerBits (s.carrierLsbs s.clen.toNat)))

/-- NOP (42_pipeline.md R145). -/
def execNop (s : State) : Host.Outcome State Fault Refusal :=
  .next s.finish

end Sys2Proof.Machine
end

