-- ==== Sys2Proof/Machine/Dispatch.lean ====
section
/-!
DEFINITION. The one dispatch over the commands (30_encoding.md R81): `exec` is `execute(w)` and the rest of the
completion step of 10_state.md R33 for a legal word.
-/

namespace Sys2Proof.Machine

def exec (i : Instr) (s : State) : Host.Outcome State Fault Refusal :=
  match i with
  | .nop => Sys2Proof.Machine.execNop s
  | .frEnc => Sys2Proof.Machine.execFrEnc s
  | .frDec => Sys2Proof.Machine.execFrDec s
  | .bcWr => Sys2Proof.Machine.execBcWr s
  | .bcRd => Sys2Proof.Machine.execBcRd s
  | .capacity => Sys2Proof.Machine.execCapacity s
  | .encode => Sys2Proof.Machine.execEncode s
  | .decode => Sys2Proof.Machine.execDecode s

end Sys2Proof.Machine
end

