-- ==== Sys2Proof/Machine/Step.lean ====
section
/-!
DEFINITION. One step of the machine: the next turn of the agenda, the host's or the Engine's (00_scope.md R11), and
the Engine's completion step (10_state.md R33).
-/

namespace Sys2Proof.Machine

/-- The Engine's turn (10_state.md R33): with a command in flight, decode its word and complete it; with none the
Engine has no step and the block is idle (60_exceptions.md R174). -/
def engineTurn (s : State) : Host.Outcome State Fault Refusal :=
  match s.pend with
  | none => .next s
  | some w =>
    match decodeCommand w with
    | .ok i => exec i s
    | .error _ => .next s.rejectWord

/-- One step: the next turn of the agenda is taken off it and happens; an empty agenda leaves the turn to the Engine
(00_scope.md R11; log entry 1). -/
def step (s : State) : Host.Outcome State Fault Refusal :=
  match s.agenda with
  | [] => engineTurn s
  | .engine :: rest => engineTurn { s with agenda := rest }
  | .reset :: rest => .next (State.resetBlock { s with agenda := rest })
  | .access x :: rest => .next (State.hostAccess { s with agenda := rest } x)

/-- The state in which the next step completes the command whose word has these bits: the word is issued (PEND holds
it and ERR is 0, as 10_state.md R32 says of a Write32 to CMD) and the next turn is the Engine's. Log entry 10. -/
def State.withFetchWord (s : State) (nbits w : Nat) : State :=
  { s.issue (tableWord nbits w) with agenda := .engine :: s.agenda }

end Sys2Proof.Machine
end

