-- ==== Sys2Proof/Safety.lean ====
section
/-!
DEFINITION. The facts that hold in every reachable state (10_state.md R37, 00_scope.md R4) and the end of a run
(70_reset_and_hazards.md R199).
-/

namespace Sys2Proof.Machine

/-- The constraints on the OPEN parameters (00_scope.md R4). -/
def State.paramsOk (s : State) : Prop :=
  1 ≤ s.carrierMax.toNat ∧ s.carrierMax.toNat ≤ Config.carrierLimit ∧
  Config.frameMaxBits ≤ s.bitbufDepth.toNat ∧ s.bitbufDepth.toNat ≤ Config.bitbufLimit

/-- The three memories are in canonical form. -/
def State.memoriesCanonical (s : State) : Prop :=
  Memory.wf s.carrierFill s.carrier = true ∧ Memory.wf s.payloadFill s.payload = true ∧
  Memory.wf s.bitbufFill s.bitbuf = true

/-- The three memories list only elements that exist: CARRIER_MAX bytes, 65535 bytes, BITBUF_DEPTH bits
(20_memory.md R52, R53, R54). -/
def State.memoriesWithin (s : State) : Prop :=
  Memory.within s.carrierMax.toNat s.carrier = true ∧ Memory.within Config.payloadBytes s.payload = true ∧
  Memory.within s.bitbufDepth.toNat s.bitbuf = true

/-- What holds in every reachable state: the parameters' constraints (00_scope.md R4), CLEN and BITLEN in their legal
ranges (10_state.md R37), ERR = 0 while a command is in flight (10_state.md R23), and the form of the memories. LEN ≤ 65535 and
ERR ≤ 6 hold by the fields' types, and BUSY = 1 exactly when PEND holds a word by the definition of BUSY. -/
structure State.Inv (s : State) : Prop where
  params : s.paramsOk
  clen_le : s.clen.toNat ≤ s.carrierMax.toNat
  bitlen_le : s.bitlen.toNat ≤ s.bitbufDepth.toNat
  err_of_busy : s.busy = true → s.err = .success
  canonical : s.memoriesCanonical
  within : s.memoriesWithin

/-- The end of a run (70_reset_and_hazards.md R199): the host has performed its last access and PEND = none. Turns of
the Engine may still be to come; they change nothing. -/
def State.atEnd (s : State) : Prop := s.hostDone = true ∧ s.pend = none

end Sys2Proof.Machine
end

