-- ==== Sys2Proof/Certificates/Slice0/Obligations.lean ====
section
/-!
DEFINITION. The statements for the provers: what the spec's numbered rules say the block does, as propositions about
the model. `Claims` holds the predicates several of them share.
-/

namespace Sys2Proof.Machine.Claims

/-- The next turn is the Engine's, and `u` is `s` with that turn taken (log entry 1). -/
def EngineNext (s u : State) : Prop :=
  (s.agenda = [] ∧ u = s) ∨ (s.agenda = .engine :: u.agenda ∧ u = { s with agenda := u.agenda })

/-- The next turn is the host's access `x`, and `u` is `s` with that turn taken (log entry 1). -/
def HostNext (s : State) (x : Access) (u : State) : Prop :=
  s.agenda = .access x :: u.agenda ∧ u = { s with agenda := u.agenda }

/-- The command words that are legal, each with its command (30_encoding.md R81). -/
def legalWords : List (Word × Instr) :=
  [(0x00000000#32, .nop), (0x00000001#32, .frEnc), (0x00000002#32, .frDec), (0x00000003#32, .bcWr),
   (0x00000004#32, .bcRd), (0x00000010#32, .capacity), (0x00000011#32, .encode), (0x00000012#32, .decode)]

/-- A word with a reserved bit set, or whose opcode is one of 0x05 to 0x0F and 0x13 to 0xFF (30_encoding.md R82). -/
def IllegalWord (w : Word) : Prop :=
  256 ≤ w.toNat ∨ (0x05 ≤ w.toNat ∧ w.toNat ≤ 0x0F) ∨ (0x13 ≤ w.toNat ∧ w.toNat ≤ 0xFF)

/-- The bits `b` begin with the marker `m`: bit `k` is `m[31-k]` (10_state.md R21, 30_encoding.md R86). -/
def MarkerAt (b : Nat → Bool) (m : Word) : Prop := ∀ k, k < 32 → b k = m.getLsbD (31 - k)

/-- The length field of the bits `b` is `n`, MSB-first (30_encoding.md R86). -/
def LengthAt (b : Nat → Bool) (n : BitVec 16) : Prop := ∀ k, k < 16 → b (32 + k) = n.getLsbD (15 - k)

/-- From bit 48 on, the bits `b` hold the first `n` of the bytes `p`, each MSB-first (30_encoding.md R86). -/
def PayloadAt (b : Nat → Bool) (n : Nat) (p : Nat → Byte) : Prop :=
  ∀ j, j < n → ∀ i, i < 8 → b (48 + 8 * j + i) = (p j).getLsbD (7 - i)

/-- The LSB of each carrier byte. -/
def lsbs (s : State) (i : Nat) : Bool := (s.carrierByte i).getLsbD 0

/-- The two states agree on every register a host can read but STATUS, LEN, BITLEN and CAP. -/
def ConstantsSame (s t : State) : Prop :=
  t.marker = s.marker ∧ t.carrierMax = s.carrierMax ∧ t.bitbufDepth = s.bitbufDepth ∧ t.clen = s.clen

/-- The two states agree on the model's own fields. -/
def OwnSame (s t : State) : Prop :=
  t.epoch = s.epoch ∧ t.draws = s.draws ∧ t.agenda = s.agenda ∧ t.responses = s.responses

/-- Every CARRIER byte reads the same. -/
def CarrierSame (s t : State) : Prop := ∀ i, t.carrierByte i = s.carrierByte i

/-- Every PAYLOAD byte reads the same. -/
def PayloadSame (s t : State) : Prop := ∀ j, t.payloadByte j = s.payloadByte j

/-- Every BITBUF bit reads the same. -/
def BitbufSame (s t : State) : Prop := ∀ k, t.bit k = s.bit k

/-- `s` with the error `e` reported and the command complete, and nothing else changed (60_exceptions.md R162). -/
def failed (s : State) (e : ErrCode) : State := { s with err := e, pend := none }

/-- The command `i`, which decodes the `L` bits `b s`, fails on `s` by the first check that fails
(40_framer.md R102, R103; 42_pipeline.md R144). -/
def DecodeFails (i : Instr) (L : State → Nat) (b : State → Nat → Bool) : Prop :=
  (∀ s, L s < 48 → exec i s = .next (failed s .malformedStream)) ∧
  (∀ s, 48 ≤ L s → ¬ MarkerAt (b s) s.marker → exec i s = .next (failed s .notSteganographic)) ∧
  (∀ s n, 48 ≤ L s → MarkerAt (b s) s.marker → LengthAt (b s) n → L s < 48 + 8 * n.toNat →
    exec i s = .next (failed s .truncatedPayload))

/-- The command `i`, which decodes the `L` bits `b s`, completes on every state whose bits hold a whole frame: LEN is
the length, P[0..n-1] the payload, and the rest is unchanged (40_framer.md R103; 42_pipeline.md R144). -/
def DecodeSucceeds (i : Instr) (L : State → Nat) (b : State → Nat → Bool) : Prop :=
  ∀ s n, MarkerAt (b s) s.marker → LengthAt (b s) n → 48 + 8 * n.toNat ≤ L s →
    ∃ t, exec i s = .next t ∧ t.err = .success ∧ t.pend = none ∧ t.len = n ∧
      PayloadAt (b s) n.toNat t.payloadByte ∧ (∀ j, n.toNat ≤ j → t.payloadByte j = s.payloadByte j) ∧
      ConstantsSame s t ∧ OwnSame s t ∧ t.bitlen = s.bitlen ∧ t.cap = s.cap ∧ CarrierSame s t ∧ BitbufSame s t

/-- The bits a decoding command parses: B[0..BITLEN-1] for FR_DEC, the LSBs of C[0..CLEN-1] for DECODE
(40_framer.md R103, 42_pipeline.md R144). -/
def decodedBits (i : Instr) (s : State) : List Bool :=
  if i = .frDec then s.bits s.bitlen.toNat else s.carrierLsbs s.clen.toNat

/-- The accesses the block accepts in state `s` (20_memory.md R51, R55, R56; 10_state.md R21 to R30;
70_reset_and_hazards.md R194). -/
def Accepted (s : State) : Access → Prop
  | .read32 a => a.toNat < 0x24 ∧ a.toNat % 4 = 0
  | .write32 a v => s.pend = none ∧
      (a = 0x04#32 ∨ (a = 0x0C#32 ∧ v.toNat ≤ 65535) ∨ (a = 0x10#32 ∧ v.toNat ≤ s.carrierMax.toNat) ∨
        (a = 0x14#32 ∧ v.toNat ≤ s.bitbufDepth.toNat))
  | .read8 a => s.pend = none ∧
      ((0x00010000 ≤ a.toNat ∧ a.toNat ≤ 0x0001FFFE) ∨
       (0x01000000 ≤ a.toNat ∧ a.toNat < 0x01000000 + s.bitbufDepth.toNat) ∨
       (0x80000000 ≤ a.toNat ∧ a.toNat < 0x80000000 + s.carrierMax.toNat))
  | .write8 a _ => s.pend = none ∧
      ((0x00010000 ≤ a.toNat ∧ a.toNat ≤ 0x0001FFFE) ∨
       (0x01000000 ≤ a.toNat ∧ a.toNat < 0x01000000 + s.bitbufDepth.toNat) ∨
       (0x80000000 ≤ a.toNat ∧ a.toNat < 0x80000000 + s.carrierMax.toNat))

end Sys2Proof.Machine.Claims

open Sys2Proof Sys2Proof.Machine Sys2Proof.Machine.Claims

/-! ### The step and the encoding -/

/-- 10_state.md R33, 00_scope.md R11 (the agenda is the model's: log entry 1): when the next turn is the Engine's and the
word in flight decodes to `i`, the step is `exec i` on the state with that turn taken. -/
def Obligations.StepRunsDecodedCommand : Prop :=
  ∀ s u w i, EngineNext s u → s.pend = some w → decodeCommand w = .ok i → step s = exec i u

/-- 30_encoding.md R81: a word decodes to a command exactly when the pair is one of the eight of the map. -/
def Obligations.LegalWordsAreTheEight : Prop :=
  (∀ w i, decodeCommand w = .ok i ↔ (w, i) ∈ legalWords) ∧
  (∀ w, (∃ e, decodeCommand w = .error e) ↔ w ∉ legalWords.map Prod.fst)

/-- 30_encoding.md R80, R81, R85: decoding inverts encoding on every command, and encoding inverts decoding on every
word that decodes; every command is well formed, and the legal words are the well-formed ones. -/
def Obligations.DecodeEncodeAgree : Prop :=
  (∀ i, i.wf = true → decodeCommand (encodeCommand i) = .ok i) ∧
  (∀ w i, decodeCommand w = .ok i → encodeCommand i = w) ∧
  (∀ w, wordWellFormed w = true ↔ ∃ i, decodeCommand w = .ok i)

/-- 30_encoding.md R81, 95_test_vectors.md 2.9: some words, written out, decode as the map says. -/
def Obligations.SampleWordsDecode : Prop :=
  decodeTableWord 32 0x00000001 = some .frEnc ∧ decodeTableWord 32 0x00000003 = some .bcWr ∧
  decodeTableWord 32 0x00000011 = some .encode ∧ decodeTableWord 32 0x00000105 = none ∧
  decodeTableWord 32 0x80000011 = none ∧ decodeTableWord 32 0x00000013 = none

/-- 30_encoding.md R82: an illegal word is accepted at issue, and completes with ERR = 5, BUSY = 0 and nothing else
changed; STATUS then reads 0x00000050. -/
def Obligations.IllegalWordCompletesWithIllegalCommand : Prop :=
  (∀ s u w, IllegalWord w → HostNext s (.write32 0x04#32 w) u → s.pend = none →
    ∃ t, step s = .next t ∧ t.pend = some w ∧ t.responses = .written :: u.responses) ∧
  (∀ s u w, IllegalWord w → EngineNext s u → s.pend = some w →
    step s = .next (failed u .illegalCommand) ∧ (failed u .illegalCommand).status = 0x00000050#32)

/-! ### The Framer -/

/-- 40_framer.md R100: a frame's length, and each of its elements. -/
def Obligations.FrameLayout : Prop :=
  ∀ (m : Word) (n : BitVec 16) (p : List Byte), p.length = n.toNat →
    (frame (bitsMsbFirst m) n p).length = 48 + 8 * n.toNat ∧
    MarkerAt (fun k => (frame (bitsMsbFirst m) n p)[k]?.getD false) m ∧
    LengthAt (fun k => (frame (bitsMsbFirst m) n p)[k]?.getD false) n ∧
    PayloadAt (fun k => (frame (bitsMsbFirst m) n p)[k]?.getD false) n.toNat (fun j => p[j]?.getD 0#8)

/-- 40_framer.md R102: the answer of `parse`, by the first check that fails; on success the length is the 16-bit field and
each byte is read MSB-first. -/
def Obligations.ParseAnswers : Prop :=
  ∀ (m : Word) (s : List Bool),
    (s.length < 48 → parse (bitsMsbFirst m) s = .error .malformedStream) ∧
    (48 ≤ s.length → ¬ MarkerAt (fun k => s[k]?.getD false) m →
      parse (bitsMsbFirst m) s = .error .notSteganographic) ∧
    (∀ n : BitVec 16, 48 ≤ s.length → MarkerAt (fun k => s[k]?.getD false) m →
      LengthAt (fun k => s[k]?.getD false) n →
      (s.length < 48 + 8 * n.toNat → parse (bitsMsbFirst m) s = .error .truncatedPayload) ∧
      (48 + 8 * n.toNat ≤ s.length →
        ∃ q, parse (bitsMsbFirst m) s = .ok (n, q) ∧ q.length = n.toNat ∧
          PayloadAt (fun k => s[k]?.getD false) n.toNat (fun j => q[j]?.getD 0#8)))

/-- 40_framer.md R104 (a) to (d): the laws of `frame` and `parse`. -/
def Obligations.FrameParseLaws : Prop :=
  (∀ (m : Word) (n : BitVec 16) (p : List Byte) (x : List Bool), p.length = n.toNat →
    parse (bitsMsbFirst m) (frame (bitsMsbFirst m) n p ++ x) = .ok (n, p)) ∧
  (∀ (m : Word) (s : List Bool), 48 ≤ s.length → s.take 32 ≠ bitsMsbFirst m →
    parse (bitsMsbFirst m) s = .error .notSteganographic) ∧
  (∀ (m : Word) (s : List Bool), s.length < 48 → parse (bitsMsbFirst m) s = .error .malformedStream) ∧
  (∀ (m : Word) (s : List Bool) (n : BitVec 16) (q : List Byte), parse (bitsMsbFirst m) s = .ok (n, q) →
    48 + 8 * n.toNat ≤ s.length ∧ parse (bitsMsbFirst m) (s.take (48 + 8 * n.toNat)) = .ok (n, q))

/-- 40_framer.md R101: FR_ENC writes the frame of P[0..n-1] into B[0..48+8n-1] and its length into BITLEN, on every
state, and leaves all else; the frame fits BITBUF. -/
def Obligations.FrEncWritesTheFrame : Prop :=
  encodeCommand .frEnc = 0x00000001#32 ∧
  (∀ s : State, s.paramsOk → 48 + 8 * s.len.toNat ≤ s.bitbufDepth.toNat) ∧
  ∀ s, ∃ t, exec .frEnc s = .next t ∧ t.err = .success ∧ t.pend = none ∧
    t.bitlen.toNat = 48 + 8 * s.len.toNat ∧ MarkerAt t.bit s.marker ∧ LengthAt t.bit s.len ∧
    PayloadAt t.bit s.len.toNat s.payloadByte ∧ (∀ k, 48 + 8 * s.len.toNat ≤ k → t.bit k = s.bit k) ∧
    ConstantsSame s t ∧ OwnSame s t ∧ t.len = s.len ∧ t.cap = s.cap ∧ CarrierSame s t ∧ PayloadSame s t

/-- 40_framer.md R103: FR_DEC parses B[0..BITLEN-1]; a whole frame gives LEN and P[0..n-1], else the first failing check
decides the code and nothing else changes. -/
def Obligations.FrDecParsesBitbuf : Prop :=
  encodeCommand .frDec = 0x00000002#32 ∧
  DecodeSucceeds .frDec (fun s => s.bitlen.toNat) (fun s => s.bit) ∧
  DecodeFails .frDec (fun s => s.bitlen.toNat) (fun s => s.bit)

/-- 40_framer.md R103 (corner case), R104 (a): FR_DEC after FR_ENC succeeds and gives back LEN and every PAYLOAD byte. -/
def Obligations.FrDecInvertsFrEnc : Prop :=
  ∀ s, ∃ t u, exec .frEnc s = .next t ∧ exec .frDec t = .next u ∧ u.err = .success ∧ u.len = s.len ∧ PayloadSame s u

/-! ### The Bit Channel -/

/-- 41_bit_channel.md R120: `lsb_put` in arithmetic form and by its bits, and `lsb_get`. -/
def Obligations.LsbPutAndGet : Prop :=
  ∀ (c : Byte) (b : Bool),
    lsbPut c b = (c &&& 0xFE#8) ||| (BitVec.ofBool b).setWidth 8 ∧
    (lsbPut c b).extractLsb' 1 7 = c.extractLsb' 1 7 ∧ (lsbPut c b).getLsbD 0 = b ∧ lsbGet c = c.getLsbD 0

/-- 41_bit_channel.md R121: BC_WR with BITLEN ≤ CLEN replaces the LSB of C[0..BITLEN-1] and leaves all else; with
BITLEN > CLEN it reports ContractViolation and changes no byte. -/
def Obligations.BcWrWritesLsbs : Prop :=
  encodeCommand .bcWr = 0x00000003#32 ∧
  (∀ s, s.bitlen.toNat ≤ s.clen.toNat →
    ∃ t, exec .bcWr s = .next t ∧ t.err = .success ∧ t.pend = none ∧
      (∀ i, i < s.bitlen.toNat → t.carrierByte i = lsbPut (s.carrierByte i) (s.bit i)) ∧
      (∀ i, s.bitlen.toNat ≤ i → t.carrierByte i = s.carrierByte i) ∧
      ConstantsSame s t ∧ OwnSame s t ∧ t.len = s.len ∧ t.bitlen = s.bitlen ∧ t.cap = s.cap ∧
      PayloadSame s t ∧ BitbufSame s t) ∧
  (∀ s, s.clen.toNat < s.bitlen.toNat → exec .bcWr s = .next (failed s .contractViolation))

/-- 41_bit_channel.md R122: BC_RD copies the LSBs of C[0..k-1] into B[0..k-1] and k into BITLEN, k = min(CLEN,
BITBUF_DEPTH), on every state, and leaves all else. -/
def Obligations.BcRdReadsLsbs : Prop :=
  encodeCommand .bcRd = 0x00000004#32 ∧
  ∀ s, ∃ t, exec .bcRd s = .next t ∧ t.err = .success ∧ t.pend = none ∧
    t.bitlen.toNat = min s.clen.toNat s.bitbufDepth.toNat ∧
    (∀ i, i < min s.clen.toNat s.bitbufDepth.toNat → t.bit i = lsbs s i) ∧
    (∀ i, min s.clen.toNat s.bitbufDepth.toNat ≤ i → t.bit i = s.bit i) ∧
    ConstantsSame s t ∧ OwnSame s t ∧ t.len = s.len ∧ t.cap = s.cap ∧ CarrierSame s t ∧ PayloadSame s t

/-- 41_bit_channel.md R123 (a) to (c): bit preservation; write then read, whatever else changed in between; and truncation
to BITBUF_DEPTH is invisible to `parse`. -/
def Obligations.BitChannelLaws : Prop :=
  (∀ s, s.bitlen.toNat ≤ s.clen.toNat → ∃ t, exec .bcWr s = .next t ∧
    (∀ i, (t.carrierByte i).extractLsb' 1 7 = (s.carrierByte i).extractLsb' 1 7) ∧
    (∀ i, s.bitlen.toNat ≤ i → t.carrierByte i = s.carrierByte i)) ∧
  (∀ s, s.bitlen.toNat ≤ s.clen.toNat → ∃ t, exec .bcWr s = .next t ∧
    ∀ t' : State, t'.clen = t.clen → t'.bitbufDepth = t.bitbufDepth →
      (∀ i, i < t.clen.toNat → t'.carrierByte i = t.carrierByte i) →
      ∃ u, exec .bcRd t' = .next u ∧
        ∀ i, i < min s.bitlen.toNat s.bitbufDepth.toNat → u.bit i = s.bit i) ∧
  (∀ s : State, s.paramsOk →
    parse s.markerBits (s.carrierLsbs (min s.clen.toNat s.bitbufDepth.toNat)) =
      parse s.markerBits (s.carrierLsbs s.clen.toNat))

/-! ### The pipeline commands -/

/-- 42_pipeline.md R141: CAPACITY writes floor(CLEN/8) - 6 into CAP as a two's-complement word, on every state, and leaves
all else; a later write to CLEN leaves CAP; for a legal CLEN the value lies in its stated range. -/
def Obligations.CapacityWritesCap : Prop :=
  encodeCommand .capacity = 0x00000010#32 ∧
  (∀ s, ∃ t, exec .capacity s = .next t ∧ t.cap.toInt = (s.clen.toNat : Int) / 8 - 6 ∧
    t = { s with cap := t.cap, err := .success, pend := none }) ∧
  (∀ s u v t, HostNext s (.write32 0x10#32 v) u → step s = .next t → t.cap = s.cap) ∧
  (∀ c : Nat, c ≤ 2 ^ 31 → -6 ≤ available c ∧ available c ≤ 268435450)

/-- 42_pipeline.md R142: `n ≤ available(c)` exactly when `48 + 8n ≤ c`. -/
def Obligations.CapacityLaw : Prop :=
  ∀ n c : Nat, (n : Int) ≤ available c ↔ 48 + 8 * n ≤ c

/-- 42_pipeline.md R143: ENCODE with 48 + 8 LEN ≤ CLEN puts the frame of P[0..n-1] into the LSBs of C[0..48+8n-1] and
leaves all else; with less room it reports CapacityExceeded and changes nothing else. -/
def Obligations.EncodeWritesTheFrame : Prop :=
  encodeCommand .encode = 0x00000011#32 ∧
  (∀ s, 48 + 8 * s.len.toNat ≤ s.clen.toNat →
    ∃ t, exec .encode s = .next t ∧ t.err = .success ∧ t.pend = none ∧
      MarkerAt (lsbs t) s.marker ∧ LengthAt (lsbs t) s.len ∧ PayloadAt (lsbs t) s.len.toNat s.payloadByte ∧
      (∀ i, (t.carrierByte i).extractLsb' 1 7 = (s.carrierByte i).extractLsb' 1 7) ∧
      (∀ i, 48 + 8 * s.len.toNat ≤ i → t.carrierByte i = s.carrierByte i) ∧
      ConstantsSame s t ∧ OwnSame s t ∧ t.len = s.len ∧ t.bitlen = s.bitlen ∧ t.cap = s.cap ∧
      PayloadSame s t ∧ BitbufSame s t) ∧
  (∀ s, s.clen.toNat < 48 + 8 * s.len.toNat → exec .encode s = .next (failed s .capacityExceeded))

/-- 42_pipeline.md R144: DECODE parses the LSBs of C[0..CLEN-1]; a whole frame gives LEN and P[0..n-1], else the first
failing check decides the code and nothing else changes. -/
def Obligations.DecodeParsesCarrier : Prop :=
  encodeCommand .decode = 0x00000012#32 ∧
  DecodeSucceeds .decode (fun s => s.clen.toNat) lsbs ∧
  DecodeFails .decode (fun s => s.clen.toNat) lsbs

/-- 42_pipeline.md R145: NOP completes with ERR = 0 and changes nothing else; STATUS then reads 0. -/
def Obligations.NopClearsErr : Prop :=
  encodeCommand .nop = 0x00000000#32 ∧
  ∀ s, ∃ t, exec .nop s = .next t ∧ t = { s with err := .success, pend := none } ∧ t.status = 0x00000000#32

/-- 42_pipeline.md R146: ENCODE, DECODE, CAPACITY and NOP neither read nor write BITBUF or BITLEN: whatever these hold,
the rest of the result is the same, and they are left as they were. -/
def Obligations.PipelineIgnoresBitbuf : Prop :=
  ∀ i, i ∈ [Instr.encode, Instr.decode, Instr.capacity, Instr.nop] → ∀ s bb bl, ∃ t, exec i s = .next t ∧
    t.bitbuf = s.bitbuf ∧ t.bitlen = s.bitlen ∧
    exec i { s with bitbuf := bb, bitlen := bl } = .next { t with bitbuf := bb, bitlen := bl }

/-- 42_pipeline.md R147: ENCODE, then DECODE on any state with the same marker, CLEN and C[0..CLEN-1], whatever else
changed in between, gives back LEN and P[0..n-1]. -/
def Obligations.EncodeDecodeRoundTrip : Prop :=
  ∀ s, (s.len.toNat : Int) ≤ available s.clen.toNat → ∃ t, exec .encode s = .next t ∧
    ∀ t' : State, t'.marker = t.marker → t'.clen = t.clen →
      (∀ i, i < t.clen.toNat → t'.carrierByte i = t.carrierByte i) →
      ∃ u, exec .decode t' = .next u ∧ u.err = .success ∧ u.len = s.len ∧
        ∀ j, j < s.len.toNat → u.payloadByte j = s.payloadByte j

/-- 42_pipeline.md R148: the length boundary of ENCODE, for each range of the available capacity. -/
def Obligations.LengthBoundary : Prop :=
  ∀ s, ∃ t, exec .encode s = .next t ∧
    (0 ≤ available s.clen.toNat → available s.clen.toNat ≤ 65534 →
      ((s.len.toNat : Int) = available s.clen.toNat → t.err = .success) ∧
      ((s.len.toNat : Int) = available s.clen.toNat + 1 → t.err = .capacityExceeded ∧ CarrierSame s t)) ∧
    (65535 ≤ available s.clen.toNat → t.err = .success) ∧
    (available s.clen.toNat < 0 → t.err = .capacityExceeded ∧ CarrierSame s t)

/-- 42_pipeline.md R149 (a), (b): ENCODE against FR_ENC then BC_WR, on CARRIER and STATUS; DECODE against BC_RD then
FR_DEC, on PAYLOAD, LEN and STATUS. -/
def Obligations.PathsAgree : Prop :=
  (∀ s, ∃ t u v, exec .encode s = .next t ∧ exec .frEnc s = .next u ∧ exec .bcWr u = .next v ∧ CarrierSame t v ∧
    (48 + 8 * s.len.toNat ≤ s.clen.toNat → t.err = .success ∧ v.err = .success ∧ t.status = v.status) ∧
    (s.clen.toNat < 48 + 8 * s.len.toNat →
      t.err = .capacityExceeded ∧ t.status = 0x00000040#32 ∧ v.err = .contractViolation ∧ v.status = 0x00000060#32 ∧
      CarrierSame s t)) ∧
  (∀ s : State, s.paramsOk → ∃ t u v, exec .decode s = .next t ∧ exec .bcRd s = .next u ∧ exec .frDec u = .next v ∧
    PayloadSame t v ∧ t.len = v.len ∧ t.err = v.err ∧ t.status = v.status)

/-! ### Errors and STATUS -/

/-- 10_state.md R23, R30, R31; 60_exceptions.md R160: the fields of STATUS. -/
def Obligations.StatusFields : Prop :=
  ∀ s : State, s.status.getLsbD 0 = s.pend.isSome ∧ s.status.extractLsb' 1 3 = 0#3 ∧
    s.status.extractLsb' 4 4 = errValue s.err ∧ s.status.extractLsb' 8 24 = 0#24

/-- 60_exceptions.md R160: the codes, and which command raises which; codes 7 to 15 never appear. -/
def Obligations.CommandsRaiseOnlyTheirCodes : Prop :=
  (errValue .success = 0#4 ∧ errValue .notSteganographic = 1#4 ∧ errValue .malformedStream = 2#4 ∧
    errValue .truncatedPayload = 3#4 ∧ errValue .capacityExceeded = 4#4 ∧ errValue .illegalCommand = 5#4 ∧
    errValue .contractViolation = 6#4) ∧
  (∀ e, (errValue e).toNat ≤ 6) ∧
  ∀ i s, ∃ t, exec i s = .next t ∧
    t.err ∈ match i with
      | .nop => [ErrCode.success]
      | .frEnc => [ErrCode.success]
      | .frDec => [ErrCode.success, .notSteganographic, .malformedStream, .truncatedPayload]
      | .bcWr => [ErrCode.success, .contractViolation]
      | .bcRd => [ErrCode.success]
      | .capacity => [ErrCode.success]
      | .encode => [ErrCode.success, .capacityExceeded]
      | .decode => [ErrCode.success, .notSteganographic, .malformedStream, .truncatedPayload]

/-- 60_exceptions.md R161: each error arises exactly under its condition, over all commands and words in flight. -/
def Obligations.ErrorCausesExact : Prop :=
  (∀ i s t, exec i s = .next t →
    (t.err = .notSteganographic ↔
      (i = .frDec ∧ 48 ≤ s.bitlen.toNat ∧ ¬ MarkerAt s.bit s.marker) ∨
      (i = .decode ∧ 48 ≤ s.clen.toNat ∧ ¬ MarkerAt (lsbs s) s.marker)) ∧
    (t.err = .malformedStream ↔
      (i = .frDec ∧ s.bitlen.toNat < 48) ∨ (i = .decode ∧ s.clen.toNat < 48)) ∧
    (t.err = .truncatedPayload ↔
      (i = .frDec ∧ 48 ≤ s.bitlen.toNat ∧ MarkerAt s.bit s.marker ∧
        ∃ n, LengthAt s.bit n ∧ s.bitlen.toNat < 48 + 8 * n.toNat) ∨
      (i = .decode ∧ 48 ≤ s.clen.toNat ∧ MarkerAt (lsbs s) s.marker ∧
        ∃ n, LengthAt (lsbs s) n ∧ s.clen.toNat < 48 + 8 * n.toNat)) ∧
    (t.err = .capacityExceeded ↔ i = .encode ∧ available s.clen.toNat < s.len.toNat) ∧
    (t.err = .contractViolation ↔ i = .bcWr ∧ s.clen.toNat < s.bitlen.toNat) ∧
    t.err ≠ .illegalCommand) ∧
  (∀ s u w t, EngineNext s u → s.pend = some w → step s = .next t → (t.err = .illegalCommand ↔ IllegalWord w))

/-- 60_exceptions.md R162, 00_scope.md R10: a command that reports an error changes ERR and PEND, and nothing else. -/
def Obligations.FailedCommandChangesOnlyStatus : Prop :=
  ∀ i s t, exec i s = .next t → t.err ≠ .success → t = failed s t.err

/-- 60_exceptions.md R166, 10_state.md R35: between commands ERR changes only by an issue or a reset. -/
def Obligations.ErrKeptUntilIssueOrReset : Prop :=
  ∀ s t, s.pend = none → step s = .next t → t.err = s.err ∨
    (t.err = .success ∧ ((∃ w rest, s.agenda = .access (.write32 0x04#32 w) :: rest) ∨ ∃ rest, s.agenda = .reset :: rest))

/-! ### Frames of the commands -/

/-- 20_memory.md R60: NOP changes STATUS and PEND only, CAPACITY also CAP; no memory element changes. -/
def Obligations.NopCapacityFrame : Prop :=
  ∀ i, i ∈ [Instr.nop, Instr.capacity] → ∀ s t, exec i s = .next t →
    ConstantsSame s t ∧ OwnSame s t ∧ t.len = s.len ∧ t.bitlen = s.bitlen ∧ (i = .nop → t.cap = s.cap) ∧
    CarrierSame s t ∧ PayloadSame s t ∧ BitbufSame s t ∧ t.pend = none

/-- 20_memory.md R60, 40_framer.md R101, 41_bit_channel.md R122: FR_ENC and BC_RD change BITLEN, STATUS, PEND and the first
BITLEN' bits of BITBUF (48 + 8 LEN for FR_ENC, min(CLEN, BITBUF_DEPTH) for BC_RD), and nothing else. -/
def Obligations.FrEncBcRdFrame : Prop :=
  ∀ i, i ∈ [Instr.frEnc, Instr.bcRd] → ∀ s t, exec i s = .next t →
    ConstantsSame s t ∧ OwnSame s t ∧ t.len = s.len ∧ t.cap = s.cap ∧ t.pend = none ∧
    CarrierSame s t ∧ PayloadSame s t ∧
    (∀ n, n = (if i = .frEnc then frameBits s.len.toNat else s.bcRdCount) → ∀ k, n ≤ k → t.bit k = s.bit k)

/-- 20_memory.md R60, 40_framer.md R103, 42_pipeline.md R144: FR_DEC and DECODE change LEN, STATUS, PEND and P[0..n-1], n
the length parsed, and nothing else; where the parse fails, not LEN and not PAYLOAD. -/
def Obligations.FrDecDecodeFrame : Prop :=
  ∀ i, i ∈ [Instr.frDec, Instr.decode] → ∀ s t, exec i s = .next t →
    ConstantsSame s t ∧ OwnSame s t ∧ t.bitlen = s.bitlen ∧ t.cap = s.cap ∧ t.pend = none ∧
    CarrierSame s t ∧ BitbufSame s t ∧
    (∀ n q, parse s.markerBits (decodedBits i s) = .ok (n, q) →
      t.len = n ∧ ∀ j, n.toNat ≤ j → t.payloadByte j = s.payloadByte j) ∧
    (∀ e, parse s.markerBits (decodedBits i s) = .error e → t.err = e ∧ t.len = s.len ∧ PayloadSame s t)

/-- 20_memory.md R60, 41_bit_channel.md R121, 42_pipeline.md R143: BC_WR and ENCODE change STATUS, PEND and bit 0 of the
first carrier bytes (BITLEN for BC_WR, 48 + 8 LEN for ENCODE), and nothing else; on an error no carrier byte. -/
def Obligations.BcWrEncodeFrame : Prop :=
  ∀ i, i ∈ [Instr.bcWr, Instr.encode] → ∀ s t, exec i s = .next t →
    ConstantsSame s t ∧ OwnSame s t ∧ t.len = s.len ∧ t.bitlen = s.bitlen ∧ t.cap = s.cap ∧ t.pend = none ∧
    PayloadSame s t ∧ BitbufSame s t ∧
    (∀ x, (t.carrierByte x).extractLsb' 1 7 = (s.carrierByte x).extractLsb' 1 7) ∧
    (∀ n, n = (if i = .bcWr then s.bitlen.toNat else frameBits s.len.toNat) →
      ∀ x, n ≤ x → t.carrierByte x = s.carrierByte x) ∧
    (t.err ≠ .success → CarrierSame s t)

/-- 20_memory.md R52, 10_state.md R25: over all commands, bits 7:1 of every carrier byte and every carrier byte from CLEN on
stay as they are, and CLEN too. -/
def Obligations.EngineKeepsCarrierUpperBits : Prop :=
  ∀ i s t, exec i s = .next t → t.clen = s.clen ∧
    (∀ k, (t.carrierByte k).extractLsb' 1 7 = (s.carrierByte k).extractLsb' 1 7) ∧
    (∀ k, s.clen.toNat ≤ k → t.carrierByte k = s.carrierByte k)

/-- 20_memory.md R52: a command's result does not depend on bits 7:1 of the carrier nor on the bytes from CLEN on: two
states that differ in these alone give the same registers, payload, bit buffer and LSBs below CLEN. -/
def Obligations.CommandsReadOnlyCarrierLsbs : Prop :=
  ∀ i s c, (∀ k, k < s.clen.toNat → lsbs { s with carrier := c } k = lsbs s k) →
    ∃ t t', exec i s = .next t ∧ exec i { s with carrier := c } = .next t' ∧
      t'.err = t.err ∧ t'.len = t.len ∧ t'.bitlen = t.bitlen ∧ t'.cap = t.cap ∧
      t'.payload = t.payload ∧ t'.bitbuf = t.bitbuf ∧ ∀ k, k < s.clen.toNat → lsbs t' k = lsbs t k

/-! ### The host's side -/

/-- 10_state.md R22, R32: a Write32 to CMD issues its word while no command is in flight, is refused without effect while
one is, and a Read32 of CMD gives 0. -/
def Obligations.CmdPort : Prop :=
  (∀ s u w, HostNext s (.write32 0x04#32 w) u → s.pend = none → ∃ t, step s = .next t ∧
    t = { u with pend := some w, err := .success, responses := .written :: u.responses } ∧ t.status = 0x00000001#32) ∧
  (∀ s u w, HostNext s (.write32 0x04#32 w) u → s.pend ≠ none →
    step s = .next { u with responses := .buserr :: u.responses }) ∧
  (∀ s u, HostNext s (.read32 0x04#32) u →
    step s = .next { u with responses := .data32 0x00000000#32 :: u.responses })

/-- 20_memory.md R57 with R51, R55, R56 and 10_state.md R24 to R26, 70_reset_and_hazards.md R194: an access is answered
buserr exactly when it is not accepted, and then has no effect. -/
def Obligations.BusErrorsExactAndWithoutEffect : Prop :=
  ∀ s x u, s.paramsOk → HostNext s x u → ∃ t r, step s = .next t ∧ t.responses = r :: u.responses ∧
    (r = .buserr ↔ ¬ Accepted s x) ∧ (r = .buserr → t = { u with responses := .buserr :: u.responses })

/-- 70_reset_and_hazards.md R194: the responses while a command is in flight: LEN, BITLEN and CAP read as the model's next
free value, which counts the draw (log entry 5), no access changes anything else but the model's record of responses (log
entry 2), and a reset leaves no command in flight, the reset registers, and that record (log entry 14). -/
def Obligations.BusyWindowResponses : Prop :=
  ∀ s u : State, s.pend ≠ none → s.err = .success →
    (HostNext s (.read32 0x08#32) u → step s = .next { u with responses := .data32 0x00000001#32 :: u.responses }) ∧
    (HostNext s (.read32 0x00#32) u → step s = .next { u with responses := .data32 s.marker :: u.responses }) ∧
    (HostNext s (.read32 0x10#32) u → step s = .next { u with responses := .data32 s.clen :: u.responses }) ∧
    (HostNext s (.read32 0x1C#32) u → step s = .next { u with responses := .data32 s.carrierMax :: u.responses }) ∧
    (HostNext s (.read32 0x20#32) u → step s = .next { u with responses := .data32 s.bitbufDepth :: u.responses }) ∧
    (HostNext s (.read32 0x04#32) u → step s = .next { u with responses := .data32 0x00000000#32 :: u.responses }) ∧
    (∀ a, a ∈ [0x0C#32, 0x14#32, 0x18#32] → HostNext s (.read32 a) u →
      step s = .next
        { u with responses := .data32 (Config.busyRead s.draws) :: u.responses, draws := u.draws + 1 }) ∧
    (∀ a v, HostNext s (.write32 a v) u → step s = .next { u with responses := .buserr :: u.responses }) ∧
    (∀ a, HostNext s (.read8 a) u → step s = .next { u with responses := .buserr :: u.responses }) ∧
    (∀ a v, HostNext s (.write8 a v) u → step s = .next { u with responses := .buserr :: u.responses }) ∧
    (∀ a, ¬ (a.toNat < 0x24 ∧ a.toNat % 4 = 0) → HostNext s (.read32 a) u →
      step s = .next { u with responses := .buserr :: u.responses }) ∧
    (∀ rest, s.agenda = .reset :: rest → ∃ t, step s = .next t ∧ t.pend = none ∧ t.status = 0x00000000#32 ∧
      t.len = 0#16 ∧ t.clen = 0#32 ∧ t.bitlen = 0#32 ∧ t.cap = 0xFFFFFFFA#32 ∧ t.responses = s.responses)

/-- 10_state.md R21, R23 to R29: what a Read32 of each register gives while no command is in flight, with no effect. -/
def Obligations.RegisterReads : Prop :=
  ∀ s u a v, s.pend = none → HostNext s (.read32 a) u →
    (a, v) ∈ [(0x00#32, s.marker), (0x04#32, 0#32), (0x08#32, s.status), (0x0C#32, s.len.setWidth 32),
      (0x10#32, s.clen), (0x14#32, s.bitlen), (0x18#32, s.cap), (0x1C#32, s.carrierMax),
      (0x20#32, s.bitbufDepth)] →
    step s = .next { u with responses := .data32 v :: u.responses }

/-- 10_state.md R24 to R26: the host's writes to LEN, CLEN and BITLEN while no command is in flight: a legal value is
stored and nothing else changes, an illegal one is a bus error and nothing changes. -/
def Obligations.HostWritesLenClenBitlen : Prop :=
  ∀ (s u : State) (v : Word), s.pend = none →
    (HostNext s (.write32 0x0C#32 v) u →
      (v.toNat ≤ 65535 → ∃ t, step s = .next t ∧ t.len.toNat = v.toNat ∧
        t = { u with len := t.len, responses := .written :: u.responses }) ∧
      (65535 < v.toNat → step s = .next { u with responses := .buserr :: u.responses })) ∧
    (HostNext s (.write32 0x10#32 v) u →
      (v.toNat ≤ s.carrierMax.toNat → step s = .next { u with clen := v, responses := .written :: u.responses }) ∧
      (s.carrierMax.toNat < v.toNat → step s = .next { u with responses := .buserr :: u.responses })) ∧
    (HostNext s (.write32 0x14#32 v) u →
      (v.toNat ≤ s.bitbufDepth.toNat → step s = .next { u with bitlen := v, responses := .written :: u.responses }) ∧
      (s.bitbufDepth.toNat < v.toNat → step s = .next { u with responses := .buserr :: u.responses }))

/-- 20_memory.md R51 to R54: what a Read8 and a Write8 do in each memory window while no command is in flight. -/
def Obligations.MemoryWindows : Prop :=
  (∀ s u j, s.pend = none → j < 65535 →
    (HostNext s (.read8 (BitVec.ofNat 32 (0x00010000 + j))) u →
      step s = .next { u with responses := .data8 (s.payloadByte j) :: u.responses }) ∧
    (∀ v, HostNext s (.write8 (BitVec.ofNat 32 (0x00010000 + j)) v) u → ∃ t, step s = .next t ∧
      t = { u with payload := t.payload, responses := .written :: u.responses } ∧
      ∀ x, t.payloadByte x = if x = j then v else s.payloadByte x)) ∧
  (∀ s u k, s.paramsOk → s.pend = none → k < s.bitbufDepth.toNat →
    (HostNext s (.read8 (BitVec.ofNat 32 (0x01000000 + k))) u →
      step s = .next { u with responses := .data8 (if s.bit k then 0x01#8 else 0x00#8) :: u.responses }) ∧
    (∀ v, HostNext s (.write8 (BitVec.ofNat 32 (0x01000000 + k)) v) u → ∃ t, step s = .next t ∧
      t = { u with bitbuf := t.bitbuf, responses := .written :: u.responses } ∧
      ∀ x, t.bit x = if x = k then v.getLsbD 0 else s.bit x)) ∧
  (∀ s u i, s.paramsOk → s.pend = none → i < s.carrierMax.toNat →
    (HostNext s (.read8 (BitVec.ofNat 32 (0x80000000 + i))) u →
      step s = .next { u with responses := .data8 (s.carrierByte i) :: u.responses }) ∧
    (∀ v, HostNext s (.write8 (BitVec.ofNat 32 (0x80000000 + i)) v) u → ∃ t, step s = .next t ∧
      t = { u with carrier := t.carrier, responses := .written :: u.responses } ∧
      ∀ x, t.carrierByte x = if x = i then v else s.carrierByte x))

/-- 20_memory.md R59: no read changes the block: a Read32 or Read8 leaves every register and memory as it was (the model
records the response and the draw it may take: log entries 2 and 5). -/
def Obligations.ReadsHaveNoSideEffect : Prop :=
  ∀ s u a, (HostNext s (.read32 a) u ∨ HostNext s (.read8 a) u) →
    ∃ t, step s = .next t ∧ t = { u with responses := t.responses, draws := t.draws }

/-- 10_state.md R21, R28, R29: MARKER, CARRIER_MAX and BITBUF_DEPTH are constants: no step changes them, a host write to
them is a bus error without effect, and bit 31 - k of MARKER is `MARKER_BITS[k]`. -/
def Obligations.ConstantRegisters : Prop :=
  (∀ s t, step s = .next t → t.marker = s.marker ∧ t.carrierMax = s.carrierMax ∧ t.bitbufDepth = s.bitbufDepth) ∧
  (∀ s u a v, a ∈ [0x00#32, 0x1C#32, 0x20#32] → HostNext s (.write32 a v) u →
    step s = .next { u with responses := .buserr :: u.responses }) ∧
  (∀ s u, HostNext s (.read32 0x00#32) u → ∃ t M, step s = .next t ∧ t = { u with responses := .data32 M :: u.responses } ∧
    ∀ k, k < 32 → some (M.getLsbD (31 - k)) = s.markerBits[k]?) ∧
  (∀ s u, HostNext s (.read32 0x1C#32) u →
    step s = .next { u with responses := .data32 s.carrierMax :: u.responses }) ∧
  (∀ s u, HostNext s (.read32 0x20#32) u →
    step s = .next { u with responses := .data32 s.bitbufDepth :: u.responses })

/-- 10_state.md R27: CAP changes only when the Engine completes CAPACITY and at a reset. -/
def Obligations.CapWrittenOnlyByCapacityAndReset : Prop :=
  ∀ s t, step s = .next t → t.cap = s.cap ∨ (∃ rest, s.agenda = .reset :: rest ∧ t.cap = 0xFFFFFFFA#32) ∨
    (s.pend = some 0x00000010#32 ∧ t.pend = none ∧ t.cap.toInt = (s.clen.toNat : Int) / 8 - 6)

/-! ### The command life cycle -/

/-- 10_state.md R32, R33: while a command is in flight no host access changes a register or a memory. -/
def Obligations.BusyAccessesChangeNothing : Prop :=
  ∀ s x u, s.pend ≠ none → HostNext s x u →
    ∃ t, step s = .next t ∧ t = { u with responses := t.responses, draws := t.draws }

/-- 10_state.md R32, 20_memory.md R66: however many host accesses stand between issue and the Engine's turn, the command
that completes acts on the state at issue; only the model's agenda, record of responses and draws differ (log entries 1, 2
and 5). -/
def Obligations.OperandsAtCompletionAreThoseAtIssue : Prop :=
  ∀ s w i xs rest, s.pend = some w → decodeCommand w = .ok i →
    s.agenda = List.map Turn.access xs ++ .engine :: rest →
    ∃ t rs d, Sys2Proof.core.run (xs.length + 1) s = .next t ∧ rs.length = s.responses.length + xs.length ∧
      exec i { s with agenda := rest, responses := rs, draws := d } = .next t

/-- 60_exceptions.md R174: with no command in flight a turn left to the Engine changes nothing (the agenda is the
model's: log entries 1 and 13). -/
def Obligations.IdleBlockChangesNothing : Prop :=
  ∀ s u, EngineNext s u → s.pend = none → step s = .next u

/-- 93_implementation_defined.md ("No behaviour of the block is stuck"), 70_reset_and_hazards.md R196, R199: from every
state, once the host's agenda is done, one more step reaches the end of the run: PEND = none and no turn left. R196 gives
weak fairness only; that the agenda is finite and the very next step after it is the Engine's is the model's choice (log
entries 1 and 6). -/
def Obligations.EveryRunReachesItsEnd : Prop :=
  ∀ s : State, ∃ t, Sys2Proof.core.run (s.agenda.length + 1) s = .next t ∧ t.agenda = [] ∧ t.atEnd

/-- 70_reset_and_hazards.md R199, 60_exceptions.md R174 (the agenda is the model's: log entries 1 and 13): at the end of a
run the block's state is final: a step takes one of the Engine's turns, if there is one left, changes nothing else, and the
run is still at its end. -/
def Obligations.EndOfRunIsFinal : Prop :=
  ∀ s : State, s.atEnd → ∃ t, step s = .next t ∧ t = { s with agenda := s.agenda.tail } ∧ t.atEnd

/-! ### Reset and invariants -/

/-- 10_state.md R38: the state after reset. The memory elements hold free values, of which nothing is known (log entry 4),
and the constants are the instance's parameters (log entry 3). -/
def Obligations.ResetState : Prop :=
  State.reset.marker = Config.marker ∧ State.reset.status = 0x00000000#32 ∧ State.reset.len = 0#16 ∧
  State.reset.clen = 0#32 ∧ State.reset.bitlen = 0#32 ∧ State.reset.cap.toInt = -6 ∧ State.reset.pend = none ∧
  State.reset.carrierMax.toNat = Config.carrierMax ∧ State.reset.bitbufDepth.toNat = Config.bitbufDepth ∧
  (∀ i, State.reset.carrierByte i = Config.carrierPowerUp 0 i) ∧
  (∀ j, State.reset.payloadByte j = Config.payloadPowerUp 0 j) ∧
  (∀ k, State.reset.bit k = Config.bitbufPowerUp 0 k)

/-- 70_reset_and_hazards.md R190, R191: a reset turn, at any time and also with a command in flight: the registers take
their reset values, the constants stay, no command is in flight, and every memory element takes a fresh free value (log
entries 4 and 14). -/
def Obligations.ResetTurn : Prop :=
  ∀ (s : State) (rest : List Turn), s.agenda = .reset :: rest → ∃ t, step s = .next t ∧
    t.marker = s.marker ∧ t.carrierMax = s.carrierMax ∧ t.bitbufDepth = s.bitbufDepth ∧ t.status = 0x00000000#32 ∧
    t.len = 0#16 ∧ t.clen = 0#32 ∧ t.bitlen = 0#32 ∧ t.cap = 0xFFFFFFFA#32 ∧ t.pend = none ∧
    (∀ i, t.carrierByte i = Config.carrierPowerUp (s.epoch + 1) i) ∧
    (∀ j, t.payloadByte j = Config.payloadPowerUp (s.epoch + 1) j) ∧
    (∀ k, t.bit k = Config.bitbufPowerUp (s.epoch + 1) k) ∧
    t.draws = s.draws ∧ t.agenda = rest ∧ t.responses = s.responses

/-- The invariant holds after reset: the parameters' constraints (00_scope.md R4), CLEN and BITLEN in their ranges (10_state.md
R37, R38), ERR = 0 while busy (R23), memories that list only elements that exist (20_memory.md R52 to R54; log entry 7), and
the memories' canonical form, which is the model's choice (log entry 11). -/
def Obligations.ResetMeetsInvariant : Prop := State.reset.Inv

/-- Every step keeps the invariant: the parameters' constraints (00_scope.md R4), CLEN and BITLEN in their ranges
(10_state.md R37), ERR = 0 while busy (R23), memories that list only elements that exist (20_memory.md R52 to R54; log
entry 7), and the memories' canonical form, which is the model's choice (log entry 11). -/
def Obligations.StepKeepsInvariant : Prop :=
  ∀ s t : State, s.Inv → step s = .next t → t.Inv

/-- 10_state.md R37: the five facts, in every state that some host agenda reaches from reset. -/
def Obligations.ReachableStatesMeetR37 : Prop :=
  ∀ (a : List Turn) (k : Nat) (t : State),
    Sys2Proof.core.run k { State.reset with agenda := a } = .next t →
    t.len.toNat ≤ 65535 ∧ t.clen.toNat ≤ t.carrierMax.toNat ∧ t.bitlen.toNat ≤ t.bitbufDepth.toNat ∧
    (t.status.getLsbD 0 = true ↔ t.pend ≠ none) ∧ (t.status.extractLsb' 4 4).toNat ≤ 6

/-- The canonical form (the model's choice, log entry 11) is canonical, for elements of any type, so for the bytes of
CARRIER and PAYLOAD and the bits of BITBUF: two memories in it that read the same are equal as data. -/
def Obligations.CanonicalMemoriesEqual : Prop :=
  ∀ (α : Type) [DecidableEq α] (fill : Nat → α) (m m' : List (Nat × α)), Memory.wf fill m = true → Memory.wf fill m' = true →
    (∀ a, Memory.read fill m a = Memory.read fill m' a) → m = m'
end

