-- ==== Sys2Proof/Laws/Bits.lean ====
section
/-!
SUPPORT. The laws of bit sequences MSB-first (00_scope.md R8) and of the LSB of a byte (41_bit_channel.md R120).
-/

namespace Sys2Proof.Machine

@[simp] theorem length_bitsMsbFirst {w : Nat} (v : BitVec w) : (bitsMsbFirst v).length = w := by
  simp [bitsMsbFirst]

theorem getElem?_bitsMsbFirst {w : Nat} (v : BitVec w) (k : Nat) :
    (bitsMsbFirst v)[k]? = if k < w then some (v.getLsbD (w - 1 - k)) else none := by
  unfold bitsMsbFirst
  split <;> rename_i h
  · simp [h]
  · simp; omega

theorem valueMsbFirst_lt (s : List Bool) : valueMsbFirst s < 2 ^ s.length := by
  induction s with
  | nil => simp [valueMsbFirst]
  | cons b s ih =>
    have hb : b.toNat ≤ 1 := Bool.toNat_le b
    simp only [valueMsbFirst, List.length_cons, Nat.pow_succ]
    nlinarith

/-- Element `k` of a sequence is the bit of its value that MSB-first puts there. -/
theorem testBit_valueMsbFirst (s : List Bool) (i : Nat) (h : i < s.length) :
    (valueMsbFirst s).testBit i = s[s.length - 1 - i] := by
  induction s with
  | nil => simp at h
  | cons b s ih =>
    simp only [valueMsbFirst, List.length_cons] at h ⊢
    rw [Nat.mul_comm, Nat.testBit_two_pow_mul_add _ (valueMsbFirst_lt s)]
    by_cases hi : i < s.length
    · rw [if_pos hi, ih hi, List.getElem_cons, dif_neg (by omega)]
      congr 1
      omega
    · have : i = s.length := by omega
      subst this
      cases b <;> simp

/-- `value_msb_first` is the inverse of `bits_msb_first` (00_scope.md R8). -/
theorem valueMsbFirst_bitsMsbFirst {w : Nat} (v : BitVec w) : valueMsbFirst (bitsMsbFirst v) = v.toNat := by
  apply Nat.eq_of_testBit_eq
  intro i
  by_cases h : i < w
  · rw [testBit_valueMsbFirst _ _ (by simpa using h)]
    simp only [bitsMsbFirst, List.length_map, List.length_range, List.getElem_map, List.getElem_range, BitVec.getLsbD]
    congr 1
    omega
  · have h1 : valueMsbFirst (bitsMsbFirst v) < 2 ^ i :=
      Nat.lt_of_lt_of_le (by simpa using valueMsbFirst_lt (bitsMsbFirst v)) (Nat.pow_le_pow_right (by omega) (by omega))
    have h2 : v.toNat < 2 ^ i := Nat.lt_of_lt_of_le v.isLt (Nat.pow_le_pow_right (by omega) (by omega))
    rw [Nat.testBit_lt_two_pow h1, Nat.testBit_lt_two_pow h2]

/-- A sequence is determined by its value: `bits_msb_first` of the value gives the sequence back. -/
theorem bitsMsbFirst_valueMsbFirst (s : List Bool) :
    bitsMsbFirst (BitVec.ofNat s.length (valueMsbFirst s)) = s := by
  apply List.ext_getElem?
  intro k
  rw [getElem?_bitsMsbFirst]
  split <;> rename_i h
  · rw [List.getElem?_eq_getElem h, BitVec.getLsbD_ofNat, testBit_valueMsbFirst _ _ (by omega)]
    simp only [show s.length - 1 - k < s.length by omega, decide_true, Bool.true_and]
    congr 2
    omega
  · rw [List.getElem?_eq_none (by omega)]

@[simp] theorem lsbGet_lsbPut (c : Byte) (b : Bool) : lsbGet (lsbPut c b) = b := by
  revert c b; decide

/-- Bits 7:1 survive `lsb_put`. -/
theorem lsbPut_ushiftRight (c : Byte) (b : Bool) : lsbPut c b >>> 1 = c >>> 1 := by
  revert c b; decide

@[simp] theorem slice_zero_append (a b : List Bool) : slice (a ++ b) 0 a.length = a := by
  simp [slice]

/-- A slice that lies past a first part is a slice of the rest. -/
theorem slice_append_of_le (a b : List Bool) {i j : Nat} (h : a.length ≤ i) :
    slice (a ++ b) i j = slice b (i - a.length) (j - a.length) := by
  unfold slice
  rw [List.drop_append, List.drop_eq_nil_of_le h, List.nil_append]
  congr 1
  omega

/-- A slice that ends inside a first part is a slice of it. -/
theorem slice_append_of_ge (a b : List Bool) {i j : Nat} (h : j ≤ a.length) :
    slice (a ++ b) i j = slice a i j := by
  unfold slice
  by_cases hi : i ≤ a.length
  · rw [List.drop_append_of_le_length hi, List.take_append_of_le_length (by simp; omega)]
  · rw [show j - i = 0 by omega, List.take_zero, List.take_zero]

theorem length_slice (s : List Bool) (i j : Nat) : (slice s i j).length = min (j - i) (s.length - i) := by
  simp [slice]

theorem getElem?_slice (s : List Bool) (i j k : Nat) :
    (slice s i j)[k]? = if k < j - i then s[i + k]? else none := by
  simp [slice, List.getElem?_take]

end Sys2Proof.Machine
end

