-- ==== Sys2Proof/Laws/Framer.lean ====
section
/-!
SUPPORT. What `frame` and `parse` can answer (40_framer.md R100, R102), said once, so that later proofs cite these and
do not unfold them.
-/

namespace Sys2Proof.Machine

@[simp] theorem length_flatMap_bits (p : List Byte) :
    (p.flatMap fun c => bitsMsbFirst c).length = 8 * p.length := by
  induction p with
  | nil => rfl
  | cons c p ih => simp only [List.flatMap_cons, List.length_append, length_bitsMsbFirst, ih, List.length_cons]; omega

theorem length_frame (mk : List Bool) (n : BitVec 16) (p : List Byte) :
    (frame mk n p).length = mk.length + 16 + 8 * p.length := by
  simp [frame]; omega

/-- Bit `t` of payload byte `j` in the payload part of a frame. -/
theorem getElem?_flatMap_bits (p : List Byte) (j t : Nat) (ht : t < 8) :
    (p.flatMap fun c => bitsMsbFirst c)[8 * j + t]? = (p[j]?).map fun c => c.getLsbD (7 - t) := by
  induction p generalizing j with
  | nil => simp
  | cons c p ih =>
    rw [List.flatMap_cons, List.getElem?_append, length_bitsMsbFirst]
    cases j with
    | zero => rw [if_pos (by omega), getElem?_bitsMsbFirst, if_pos (by omega)]; simp
    | succ j =>
      rw [if_neg (by omega), show 8 * (j + 1) + t - 8 = 8 * j + t by omega, ih]
      simp

/-- The eight bits of payload byte `j`. -/
theorem slice_flatMap_bits (p : List Byte) (j : Nat) (h : j < p.length) :
    slice (p.flatMap fun c => bitsMsbFirst c) (8 * j) (8 * j + 8) = bitsMsbFirst p[j] := by
  apply List.ext_getElem?
  intro k
  rw [getElem?_slice, getElem?_bitsMsbFirst]
  by_cases hk : k < 8
  · rw [if_pos (by omega), if_pos hk, getElem?_flatMap_bits p j k hk, List.getElem?_eq_getElem h]
    rfl
  · rw [if_neg (by omega), if_neg hk]

/-- The length field a sequence announces, bits 32 to 47 (40_framer.md R102, step 2). -/
def announced (s : List Bool) : Nat := valueMsbFirst (slice s 32 48)

/-- The payload bytes a sequence holds from bit 48 on (40_framer.md R102, step 4). -/
def carried (s : List Bool) : List Byte :=
  (List.range (announced s)).map fun j => BitVec.ofNat 8 (valueMsbFirst (slice s (48 + 8 * j) (48 + 8 * j + 8)))

theorem announced_lt (s : List Bool) : announced s < 2 ^ 16 := by
  refine Nat.lt_of_lt_of_le (valueMsbFirst_lt _) (Nat.pow_le_pow_right (by omega) ?_)
  rw [length_slice]
  omega

@[simp] theorem length_carried (s : List Bool) : (carried s).length = announced s := by simp [carried]

/-- The four answers of `parse`, by the first check that fails (40_framer.md R102). -/
theorem parse_eq (mk s : List Bool) :
    parse mk s =
      if s.length < 48 then .error .malformedStream
      else if slice s 0 32 ≠ mk then .error .notSteganographic
      else if s.length < 48 + 8 * announced s then .error .truncatedPayload
      else .ok (BitVec.ofNat 16 (announced s), carried s) := rfl

/-- What a successful `parse` says: the length is that of the bytes, and the sequence is long enough. -/
theorem parse_ok {mk s : List Bool} {n : BitVec 16} {q : List Byte} (h : parse mk s = .ok (n, q)) :
    n.toNat = announced s ∧ q = carried s ∧ q.length = n.toNat ∧ 48 + 8 * n.toNat ≤ s.length ∧ slice s 0 32 = mk := by
  rw [parse_eq] at h
  split at h
  · cases h
  · split at h
    · cases h
    · split at h
      · cases h
      · simp only [Except.ok.injEq, Prod.mk.injEq] at h
        obtain ⟨rfl, rfl⟩ := h
        have hn : (BitVec.ofNat 16 (announced s)).toNat = announced s := by
          rw [BitVec.toNat_ofNat, Nat.mod_eq_of_lt (announced_lt s)]
        refine ⟨hn, rfl, by simp [hn], by omega, ?_⟩
        simpa using ‹¬slice s 0 32 ≠ mk›

/-- The three errors of `parse`. -/
theorem parse_error {mk s : List Bool} {e : ErrCode} (h : parse mk s = .error e) :
    (e = .malformedStream ∧ s.length < 48) ∨
    (e = .notSteganographic ∧ 48 ≤ s.length ∧ slice s 0 32 ≠ mk) ∨
    (e = .truncatedPayload ∧ 48 ≤ s.length ∧ slice s 0 32 = mk ∧ s.length < 48 + 8 * announced s) := by
  rw [parse_eq] at h
  split at h
  · cases h; exact .inl ⟨rfl, ‹_›⟩
  · split at h
    · cases h; exact .inr (.inl ⟨rfl, by omega, ‹_›⟩)
    · split at h
      · cases h; exact .inr (.inr ⟨rfl, by omega, by simpa using ‹¬slice s 0 32 ≠ mk›, ‹_›⟩)
      · cases h

end Sys2Proof.Machine
end

