-- ==== Sys2Proof/Laws/Memory.lean ====
section
/-!
SUPPORT. The laws of one memory: what a read gives after a write, and that every operation keeps the canonical form
and the size.
-/

namespace Sys2Proof.Machine

variable {α : Type} {fill : Nat → α}

/-! ### Read after write -/

theorem Memory.read_insert (m : List (Nat × α)) (a : Nat) (v : α) (x : Nat) :
    Memory.read fill (Memory.insert m a v) x = if x = a then v else Memory.read fill m x := by
  induction m with
  | nil => simp [Memory.insert, Memory.read, eq_comm]
  | cons c m ih =>
    obtain ⟨k, w⟩ := c
    simp only [Memory.insert]
    split
    · simp only [Memory.read, ih]
      grind
    · split <;> simp only [Memory.read] <;> grind

theorem Memory.read_erase (m : List (Nat × α)) (a x : Nat) :
    Memory.read fill (Memory.erase m a) x = if x = a then fill x else Memory.read fill m x := by
  induction m with
  | nil => simp [Memory.erase, Memory.read]
  | cons c m ih =>
    obtain ⟨k, w⟩ := c
    simp only [Memory.erase]
    split <;> simp only [Memory.read, ih] <;> grind

theorem Memory.read_write [DecidableEq α] (m : List (Nat × α)) (a : Nat) (v : α) (x : Nat) :
    Memory.read fill (Memory.write fill m a v) x = if x = a then v else Memory.read fill m x := by
  unfold Memory.write
  split
  · rw [Memory.read_erase]
    grind
  · exact Memory.read_insert m a v x

/-- After a sequence is written, an element inside it is the sequence's, any other is as before. -/
theorem Memory.read_writeSeq [DecidableEq α] (vs : List α) (m : List (Nat × α)) (a x : Nat) :
    Memory.read fill (Memory.writeSeq fill m a vs) x =
      if a ≤ x then (vs[x - a]?).getD (Memory.read fill m x) else Memory.read fill m x := by
  induction vs generalizing m a with
  | nil => simp [Memory.writeSeq]
  | cons v vs ih =>
    simp only [Memory.writeSeq, ih, Memory.read_write]
    rcases Nat.lt_trichotomy x a with h | rfl | h
    · rw [if_neg (by omega), if_neg (by omega), if_neg (by omega)]
    · simp
    · rw [if_pos (by omega), if_neg (by omega), if_pos (by omega), show x - a = x - (a + 1) + 1 by omega,
        List.getElem?_cons_succ]

@[simp] theorem Memory.length_readSeq (m : List (Nat × α)) (n : Nat) : (Memory.readSeq fill m n).length = n := by
  simp [Memory.readSeq]

theorem Memory.getElem?_readSeq (m : List (Nat × α)) (n k : Nat) :
    (Memory.readSeq fill m n)[k]? = if k < n then some (Memory.read fill m k) else none := by
  unfold Memory.readSeq
  split <;> rename_i h
  · simp [h]
  · simp; omega

/-- Two memories with the same elements below `n` give the same sequence. -/
theorem Memory.readSeq_congr {fill' : Nat → α} {m m' : List (Nat × α)} {n : Nat}
    (h : ∀ k, k < n → Memory.read fill m k = Memory.read fill' m' k) :
    Memory.readSeq fill m n = Memory.readSeq fill' m' n :=
  List.map_congr_left fun k hk => h k (List.mem_range.mp hk)

/-- Reading back the sequence just written at the start. -/
theorem Memory.readSeq_writeSeq [DecidableEq α] (m : List (Nat × α)) (vs : List α) :
    Memory.readSeq fill (Memory.writeSeq fill m 0 vs) vs.length = vs := by
  apply List.ext_getElem?
  intro k
  rw [Memory.getElem?_readSeq, Memory.read_writeSeq]
  split <;> rename_i h
  · simp [h]
  · simp; omega

/-! ### The canonical form -/

theorem Memory.wfFrom_mono [DecidableEq α] {m : List (Nat × α)} {lo lo' : Nat} (hle : lo' ≤ lo)
    (h : Memory.wfFrom fill lo m = true) : Memory.wfFrom fill lo' m = true := by
  cases m with
  | nil => rfl
  | cons c m =>
    simp only [Memory.wfFrom, Bool.and_eq_true, decide_eq_true_eq] at h ⊢
    exact ⟨⟨by omega, h.1.2⟩, h.2⟩

theorem Memory.wfFrom_insert [DecidableEq α] {m : List (Nat × α)} {lo a : Nat} {v : α} (hle : lo ≤ a)
    (hv : v ≠ fill a) (h : Memory.wfFrom fill lo m = true) : Memory.wfFrom fill lo (Memory.insert m a v) = true := by
  induction m generalizing lo with
  | nil => simp [Memory.insert, Memory.wfFrom, hle, hv]
  | cons c m ih =>
    obtain ⟨k, w⟩ := c
    simp only [Memory.wfFrom, Bool.and_eq_true, decide_eq_true_eq] at h
    obtain ⟨⟨hk, hw⟩, hm⟩ := h
    simp only [Memory.insert]
    split
    · simp only [Memory.wfFrom, Bool.and_eq_true, decide_eq_true_eq]
      exact ⟨⟨hk, hw⟩, ih (by omega) hm⟩
    · split
      · subst a
        simp only [Memory.wfFrom, Bool.and_eq_true, decide_eq_true_eq]
        exact ⟨⟨hk, hv⟩, hm⟩
      · simp only [Memory.wfFrom, Bool.and_eq_true, decide_eq_true_eq]
        exact ⟨⟨hle, hv⟩, ⟨by omega, hw⟩, hm⟩

theorem Memory.wfFrom_erase [DecidableEq α] {m : List (Nat × α)} {lo : Nat} (a : Nat)
    (h : Memory.wfFrom fill lo m = true) : Memory.wfFrom fill lo (Memory.erase m a) = true := by
  induction m generalizing lo with
  | nil => rfl
  | cons c m ih =>
    obtain ⟨k, w⟩ := c
    simp only [Memory.wfFrom, Bool.and_eq_true, decide_eq_true_eq] at h
    simp only [Memory.erase]
    split
    · exact Memory.wfFrom_mono (by omega) (ih h.2)
    · simp only [Memory.wfFrom, Bool.and_eq_true, decide_eq_true_eq]
      exact ⟨h.1, ih h.2⟩

theorem Memory.wf_nil [DecidableEq α] : Memory.wf fill ([] : List (Nat × α)) = true := rfl

theorem Memory.wf_write [DecidableEq α] {m : List (Nat × α)} (a : Nat) (v : α) (h : Memory.wf fill m = true) :
    Memory.wf fill (Memory.write fill m a v) = true := by
  unfold Memory.write
  split
  · exact Memory.wfFrom_erase a h
  · exact Memory.wfFrom_insert (Nat.zero_le a) ‹_› h

theorem Memory.wf_writeSeq [DecidableEq α] (vs : List α) {m : List (Nat × α)} (a : Nat) (h : Memory.wf fill m = true) :
    Memory.wf fill (Memory.writeSeq fill m a vs) = true := by
  induction vs generalizing m a with
  | nil => exact h
  | cons v vs ih => exact ih (a + 1) (Memory.wf_write a v h)

/-! ### The size -/

theorem Memory.within_insert {m : List (Nat × α)} {size a : Nat} (v : α) (ha : a < size)
    (h : Memory.within size m = true) : Memory.within size (Memory.insert m a v) = true := by
  induction m with
  | nil => simp [Memory.insert, Memory.within, ha]
  | cons c m ih =>
    obtain ⟨k, w⟩ := c
    simp only [Memory.within, List.all_cons, Bool.and_eq_true, decide_eq_true_eq] at h ih
    simp only [Memory.insert]
    split
    · simpa [Memory.within, h.1] using ih h.2
    · split <;> simpa [Memory.within, ha, h.1] using h.2

theorem Memory.within_erase {m : List (Nat × α)} {size : Nat} (a : Nat)
    (h : Memory.within size m = true) : Memory.within size (Memory.erase m a) = true := by
  induction m with
  | nil => rfl
  | cons c m ih =>
    obtain ⟨k, w⟩ := c
    simp only [Memory.within, List.all_cons, Bool.and_eq_true, decide_eq_true_eq] at h ih
    simp only [Memory.erase]
    split
    · exact ih h.2
    · simpa [Memory.within, h.1] using ih h.2

theorem Memory.within_write [DecidableEq α] {m : List (Nat × α)} {size a : Nat} (v : α) (ha : a < size)
    (h : Memory.within size m = true) : Memory.within size (Memory.write fill m a v) = true := by
  unfold Memory.write
  split
  · exact Memory.within_erase a h
  · exact Memory.within_insert v ha h

theorem Memory.within_writeSeq [DecidableEq α] (vs : List α) {m : List (Nat × α)} {size : Nat} (a : Nat)
    (ha : a + vs.length ≤ size) (h : Memory.within size m = true) :
    Memory.within size (Memory.writeSeq fill m a vs) = true := by
  induction vs generalizing m a with
  | nil => exact h
  | cons v vs ih =>
    simp only [List.length_cons] at ha
    exact ih (a + 1) (by omega) (Memory.within_write v (by omega) h)

end Sys2Proof.Machine
end

