-- ==== Sys2Proof/Laws/State.lean ====
section
/-!
SUPPORT. One lemma per field per update of the state, each true by rfl, so that no later proof unfolds a record
update. The memory views that an update does not touch follow at the end of each group.
-/

namespace Sys2Proof.Machine

variable (s : State)

/-! ### setCarrierByte -/

@[simp] theorem State.setCarrierByte_marker (i : Nat) (v : Byte) : (s.setCarrierByte i v).marker = s.marker := rfl
@[simp] theorem State.setCarrierByte_carrierMax (i : Nat) (v : Byte) : (s.setCarrierByte i v).carrierMax = s.carrierMax := rfl
@[simp] theorem State.setCarrierByte_bitbufDepth (i : Nat) (v : Byte) : (s.setCarrierByte i v).bitbufDepth = s.bitbufDepth := rfl
@[simp] theorem State.setCarrierByte_err (i : Nat) (v : Byte) : (s.setCarrierByte i v).err = s.err := rfl
@[simp] theorem State.setCarrierByte_len (i : Nat) (v : Byte) : (s.setCarrierByte i v).len = s.len := rfl
@[simp] theorem State.setCarrierByte_clen (i : Nat) (v : Byte) : (s.setCarrierByte i v).clen = s.clen := rfl
@[simp] theorem State.setCarrierByte_bitlen (i : Nat) (v : Byte) : (s.setCarrierByte i v).bitlen = s.bitlen := rfl
@[simp] theorem State.setCarrierByte_cap (i : Nat) (v : Byte) : (s.setCarrierByte i v).cap = s.cap := rfl
@[simp] theorem State.setCarrierByte_pend (i : Nat) (v : Byte) : (s.setCarrierByte i v).pend = s.pend := rfl
@[simp] theorem State.setCarrierByte_carrier (i : Nat) (v : Byte) : (s.setCarrierByte i v).carrier = Memory.write s.carrierFill s.carrier i v := rfl
@[simp] theorem State.setCarrierByte_payload (i : Nat) (v : Byte) : (s.setCarrierByte i v).payload = s.payload := rfl
@[simp] theorem State.setCarrierByte_bitbuf (i : Nat) (v : Byte) : (s.setCarrierByte i v).bitbuf = s.bitbuf := rfl
@[simp] theorem State.setCarrierByte_epoch (i : Nat) (v : Byte) : (s.setCarrierByte i v).epoch = s.epoch := rfl
@[simp] theorem State.setCarrierByte_draws (i : Nat) (v : Byte) : (s.setCarrierByte i v).draws = s.draws := rfl
@[simp] theorem State.setCarrierByte_agenda (i : Nat) (v : Byte) : (s.setCarrierByte i v).agenda = s.agenda := rfl
@[simp] theorem State.setCarrierByte_responses (i : Nat) (v : Byte) : (s.setCarrierByte i v).responses = s.responses := rfl
@[simp] theorem State.setCarrierByte_payloadByte (i : Nat) (v : Byte) (x : Nat) : (s.setCarrierByte i v).payloadByte x = s.payloadByte x := rfl
@[simp] theorem State.setCarrierByte_bit (i : Nat) (v : Byte) (x : Nat) : (s.setCarrierByte i v).bit x = s.bit x := rfl
@[simp] theorem State.setCarrierByte_markerBits (i : Nat) (v : Byte) : (s.setCarrierByte i v).markerBits = s.markerBits := rfl
@[simp] theorem State.setCarrierByte_payloadBytes (i : Nat) (v : Byte) (x : Nat) : (s.setCarrierByte i v).payloadBytes x = s.payloadBytes x := rfl
@[simp] theorem State.setCarrierByte_bits (i : Nat) (v : Byte) (x : Nat) : (s.setCarrierByte i v).bits x = s.bits x := rfl
@[simp] theorem State.setCarrierByte_carrierFill (i : Nat) (v : Byte) : (s.setCarrierByte i v).carrierFill = s.carrierFill := rfl
@[simp] theorem State.setCarrierByte_payloadFill (i : Nat) (v : Byte) : (s.setCarrierByte i v).payloadFill = s.payloadFill := rfl
@[simp] theorem State.setCarrierByte_bitbufFill (i : Nat) (v : Byte) : (s.setCarrierByte i v).bitbufFill = s.bitbufFill := rfl

/-! ### setPayloadByte -/

@[simp] theorem State.setPayloadByte_marker (j : Nat) (v : Byte) : (s.setPayloadByte j v).marker = s.marker := rfl
@[simp] theorem State.setPayloadByte_carrierMax (j : Nat) (v : Byte) : (s.setPayloadByte j v).carrierMax = s.carrierMax := rfl
@[simp] theorem State.setPayloadByte_bitbufDepth (j : Nat) (v : Byte) : (s.setPayloadByte j v).bitbufDepth = s.bitbufDepth := rfl
@[simp] theorem State.setPayloadByte_err (j : Nat) (v : Byte) : (s.setPayloadByte j v).err = s.err := rfl
@[simp] theorem State.setPayloadByte_len (j : Nat) (v : Byte) : (s.setPayloadByte j v).len = s.len := rfl
@[simp] theorem State.setPayloadByte_clen (j : Nat) (v : Byte) : (s.setPayloadByte j v).clen = s.clen := rfl
@[simp] theorem State.setPayloadByte_bitlen (j : Nat) (v : Byte) : (s.setPayloadByte j v).bitlen = s.bitlen := rfl
@[simp] theorem State.setPayloadByte_cap (j : Nat) (v : Byte) : (s.setPayloadByte j v).cap = s.cap := rfl
@[simp] theorem State.setPayloadByte_pend (j : Nat) (v : Byte) : (s.setPayloadByte j v).pend = s.pend := rfl
@[simp] theorem State.setPayloadByte_carrier (j : Nat) (v : Byte) : (s.setPayloadByte j v).carrier = s.carrier := rfl
@[simp] theorem State.setPayloadByte_payload (j : Nat) (v : Byte) : (s.setPayloadByte j v).payload = Memory.write s.payloadFill s.payload j v := rfl
@[simp] theorem State.setPayloadByte_bitbuf (j : Nat) (v : Byte) : (s.setPayloadByte j v).bitbuf = s.bitbuf := rfl
@[simp] theorem State.setPayloadByte_epoch (j : Nat) (v : Byte) : (s.setPayloadByte j v).epoch = s.epoch := rfl
@[simp] theorem State.setPayloadByte_draws (j : Nat) (v : Byte) : (s.setPayloadByte j v).draws = s.draws := rfl
@[simp] theorem State.setPayloadByte_agenda (j : Nat) (v : Byte) : (s.setPayloadByte j v).agenda = s.agenda := rfl
@[simp] theorem State.setPayloadByte_responses (j : Nat) (v : Byte) : (s.setPayloadByte j v).responses = s.responses := rfl
@[simp] theorem State.setPayloadByte_carrierByte (j : Nat) (v : Byte) (x : Nat) : (s.setPayloadByte j v).carrierByte x = s.carrierByte x := rfl
@[simp] theorem State.setPayloadByte_bit (j : Nat) (v : Byte) (x : Nat) : (s.setPayloadByte j v).bit x = s.bit x := rfl
@[simp] theorem State.setPayloadByte_markerBits (j : Nat) (v : Byte) : (s.setPayloadByte j v).markerBits = s.markerBits := rfl
@[simp] theorem State.setPayloadByte_carrierBytes (j : Nat) (v : Byte) (x : Nat) : (s.setPayloadByte j v).carrierBytes x = s.carrierBytes x := rfl
@[simp] theorem State.setPayloadByte_carrierLsbs (j : Nat) (v : Byte) (x : Nat) : (s.setPayloadByte j v).carrierLsbs x = s.carrierLsbs x := rfl
@[simp] theorem State.setPayloadByte_bits (j : Nat) (v : Byte) (x : Nat) : (s.setPayloadByte j v).bits x = s.bits x := rfl
@[simp] theorem State.setPayloadByte_carrierFill (j : Nat) (v : Byte) : (s.setPayloadByte j v).carrierFill = s.carrierFill := rfl
@[simp] theorem State.setPayloadByte_payloadFill (j : Nat) (v : Byte) : (s.setPayloadByte j v).payloadFill = s.payloadFill := rfl
@[simp] theorem State.setPayloadByte_bitbufFill (j : Nat) (v : Byte) : (s.setPayloadByte j v).bitbufFill = s.bitbufFill := rfl

/-! ### setBit -/

@[simp] theorem State.setBit_marker (k : Nat) (b : Bool) : (s.setBit k b).marker = s.marker := rfl
@[simp] theorem State.setBit_carrierMax (k : Nat) (b : Bool) : (s.setBit k b).carrierMax = s.carrierMax := rfl
@[simp] theorem State.setBit_bitbufDepth (k : Nat) (b : Bool) : (s.setBit k b).bitbufDepth = s.bitbufDepth := rfl
@[simp] theorem State.setBit_err (k : Nat) (b : Bool) : (s.setBit k b).err = s.err := rfl
@[simp] theorem State.setBit_len (k : Nat) (b : Bool) : (s.setBit k b).len = s.len := rfl
@[simp] theorem State.setBit_clen (k : Nat) (b : Bool) : (s.setBit k b).clen = s.clen := rfl
@[simp] theorem State.setBit_bitlen (k : Nat) (b : Bool) : (s.setBit k b).bitlen = s.bitlen := rfl
@[simp] theorem State.setBit_cap (k : Nat) (b : Bool) : (s.setBit k b).cap = s.cap := rfl
@[simp] theorem State.setBit_pend (k : Nat) (b : Bool) : (s.setBit k b).pend = s.pend := rfl
@[simp] theorem State.setBit_carrier (k : Nat) (b : Bool) : (s.setBit k b).carrier = s.carrier := rfl
@[simp] theorem State.setBit_payload (k : Nat) (b : Bool) : (s.setBit k b).payload = s.payload := rfl
@[simp] theorem State.setBit_bitbuf (k : Nat) (b : Bool) : (s.setBit k b).bitbuf = Memory.write s.bitbufFill s.bitbuf k b := rfl
@[simp] theorem State.setBit_epoch (k : Nat) (b : Bool) : (s.setBit k b).epoch = s.epoch := rfl
@[simp] theorem State.setBit_draws (k : Nat) (b : Bool) : (s.setBit k b).draws = s.draws := rfl
@[simp] theorem State.setBit_agenda (k : Nat) (b : Bool) : (s.setBit k b).agenda = s.agenda := rfl
@[simp] theorem State.setBit_responses (k : Nat) (b : Bool) : (s.setBit k b).responses = s.responses := rfl
@[simp] theorem State.setBit_carrierByte (k : Nat) (b : Bool) (x : Nat) : (s.setBit k b).carrierByte x = s.carrierByte x := rfl
@[simp] theorem State.setBit_payloadByte (k : Nat) (b : Bool) (x : Nat) : (s.setBit k b).payloadByte x = s.payloadByte x := rfl
@[simp] theorem State.setBit_markerBits (k : Nat) (b : Bool) : (s.setBit k b).markerBits = s.markerBits := rfl
@[simp] theorem State.setBit_carrierBytes (k : Nat) (b : Bool) (x : Nat) : (s.setBit k b).carrierBytes x = s.carrierBytes x := rfl
@[simp] theorem State.setBit_carrierLsbs (k : Nat) (b : Bool) (x : Nat) : (s.setBit k b).carrierLsbs x = s.carrierLsbs x := rfl
@[simp] theorem State.setBit_payloadBytes (k : Nat) (b : Bool) (x : Nat) : (s.setBit k b).payloadBytes x = s.payloadBytes x := rfl
@[simp] theorem State.setBit_carrierFill (k : Nat) (b : Bool) : (s.setBit k b).carrierFill = s.carrierFill := rfl
@[simp] theorem State.setBit_payloadFill (k : Nat) (b : Bool) : (s.setBit k b).payloadFill = s.payloadFill := rfl
@[simp] theorem State.setBit_bitbufFill (k : Nat) (b : Bool) : (s.setBit k b).bitbufFill = s.bitbufFill := rfl

/-! ### writeCarrier -/

@[simp] theorem State.writeCarrier_marker (vs : List Byte) : (s.writeCarrier vs).marker = s.marker := rfl
@[simp] theorem State.writeCarrier_carrierMax (vs : List Byte) : (s.writeCarrier vs).carrierMax = s.carrierMax := rfl
@[simp] theorem State.writeCarrier_bitbufDepth (vs : List Byte) : (s.writeCarrier vs).bitbufDepth = s.bitbufDepth := rfl
@[simp] theorem State.writeCarrier_err (vs : List Byte) : (s.writeCarrier vs).err = s.err := rfl
@[simp] theorem State.writeCarrier_len (vs : List Byte) : (s.writeCarrier vs).len = s.len := rfl
@[simp] theorem State.writeCarrier_clen (vs : List Byte) : (s.writeCarrier vs).clen = s.clen := rfl
@[simp] theorem State.writeCarrier_bitlen (vs : List Byte) : (s.writeCarrier vs).bitlen = s.bitlen := rfl
@[simp] theorem State.writeCarrier_cap (vs : List Byte) : (s.writeCarrier vs).cap = s.cap := rfl
@[simp] theorem State.writeCarrier_pend (vs : List Byte) : (s.writeCarrier vs).pend = s.pend := rfl
@[simp] theorem State.writeCarrier_carrier (vs : List Byte) : (s.writeCarrier vs).carrier = Memory.writeSeq s.carrierFill s.carrier 0 vs := rfl
@[simp] theorem State.writeCarrier_payload (vs : List Byte) : (s.writeCarrier vs).payload = s.payload := rfl
@[simp] theorem State.writeCarrier_bitbuf (vs : List Byte) : (s.writeCarrier vs).bitbuf = s.bitbuf := rfl
@[simp] theorem State.writeCarrier_epoch (vs : List Byte) : (s.writeCarrier vs).epoch = s.epoch := rfl
@[simp] theorem State.writeCarrier_draws (vs : List Byte) : (s.writeCarrier vs).draws = s.draws := rfl
@[simp] theorem State.writeCarrier_agenda (vs : List Byte) : (s.writeCarrier vs).agenda = s.agenda := rfl
@[simp] theorem State.writeCarrier_responses (vs : List Byte) : (s.writeCarrier vs).responses = s.responses := rfl
@[simp] theorem State.writeCarrier_payloadByte (vs : List Byte) (x : Nat) : (s.writeCarrier vs).payloadByte x = s.payloadByte x := rfl
@[simp] theorem State.writeCarrier_bit (vs : List Byte) (x : Nat) : (s.writeCarrier vs).bit x = s.bit x := rfl
@[simp] theorem State.writeCarrier_markerBits (vs : List Byte) : (s.writeCarrier vs).markerBits = s.markerBits := rfl
@[simp] theorem State.writeCarrier_payloadBytes (vs : List Byte) (x : Nat) : (s.writeCarrier vs).payloadBytes x = s.payloadBytes x := rfl
@[simp] theorem State.writeCarrier_bits (vs : List Byte) (x : Nat) : (s.writeCarrier vs).bits x = s.bits x := rfl
@[simp] theorem State.writeCarrier_carrierFill (vs : List Byte) : (s.writeCarrier vs).carrierFill = s.carrierFill := rfl
@[simp] theorem State.writeCarrier_payloadFill (vs : List Byte) : (s.writeCarrier vs).payloadFill = s.payloadFill := rfl
@[simp] theorem State.writeCarrier_bitbufFill (vs : List Byte) : (s.writeCarrier vs).bitbufFill = s.bitbufFill := rfl

/-! ### writePayload -/

@[simp] theorem State.writePayload_marker (vs : List Byte) : (s.writePayload vs).marker = s.marker := rfl
@[simp] theorem State.writePayload_carrierMax (vs : List Byte) : (s.writePayload vs).carrierMax = s.carrierMax := rfl
@[simp] theorem State.writePayload_bitbufDepth (vs : List Byte) : (s.writePayload vs).bitbufDepth = s.bitbufDepth := rfl
@[simp] theorem State.writePayload_err (vs : List Byte) : (s.writePayload vs).err = s.err := rfl
@[simp] theorem State.writePayload_len (vs : List Byte) : (s.writePayload vs).len = s.len := rfl
@[simp] theorem State.writePayload_clen (vs : List Byte) : (s.writePayload vs).clen = s.clen := rfl
@[simp] theorem State.writePayload_bitlen (vs : List Byte) : (s.writePayload vs).bitlen = s.bitlen := rfl
@[simp] theorem State.writePayload_cap (vs : List Byte) : (s.writePayload vs).cap = s.cap := rfl
@[simp] theorem State.writePayload_pend (vs : List Byte) : (s.writePayload vs).pend = s.pend := rfl
@[simp] theorem State.writePayload_carrier (vs : List Byte) : (s.writePayload vs).carrier = s.carrier := rfl
@[simp] theorem State.writePayload_payload (vs : List Byte) : (s.writePayload vs).payload = Memory.writeSeq s.payloadFill s.payload 0 vs := rfl
@[simp] theorem State.writePayload_bitbuf (vs : List Byte) : (s.writePayload vs).bitbuf = s.bitbuf := rfl
@[simp] theorem State.writePayload_epoch (vs : List Byte) : (s.writePayload vs).epoch = s.epoch := rfl
@[simp] theorem State.writePayload_draws (vs : List Byte) : (s.writePayload vs).draws = s.draws := rfl
@[simp] theorem State.writePayload_agenda (vs : List Byte) : (s.writePayload vs).agenda = s.agenda := rfl
@[simp] theorem State.writePayload_responses (vs : List Byte) : (s.writePayload vs).responses = s.responses := rfl
@[simp] theorem State.writePayload_carrierByte (vs : List Byte) (x : Nat) : (s.writePayload vs).carrierByte x = s.carrierByte x := rfl
@[simp] theorem State.writePayload_bit (vs : List Byte) (x : Nat) : (s.writePayload vs).bit x = s.bit x := rfl
@[simp] theorem State.writePayload_markerBits (vs : List Byte) : (s.writePayload vs).markerBits = s.markerBits := rfl
@[simp] theorem State.writePayload_carrierBytes (vs : List Byte) (x : Nat) : (s.writePayload vs).carrierBytes x = s.carrierBytes x := rfl
@[simp] theorem State.writePayload_carrierLsbs (vs : List Byte) (x : Nat) : (s.writePayload vs).carrierLsbs x = s.carrierLsbs x := rfl
@[simp] theorem State.writePayload_bits (vs : List Byte) (x : Nat) : (s.writePayload vs).bits x = s.bits x := rfl
@[simp] theorem State.writePayload_carrierFill (vs : List Byte) : (s.writePayload vs).carrierFill = s.carrierFill := rfl
@[simp] theorem State.writePayload_payloadFill (vs : List Byte) : (s.writePayload vs).payloadFill = s.payloadFill := rfl
@[simp] theorem State.writePayload_bitbufFill (vs : List Byte) : (s.writePayload vs).bitbufFill = s.bitbufFill := rfl

/-! ### writeBits -/

@[simp] theorem State.writeBits_marker (bs : List Bool) : (s.writeBits bs).marker = s.marker := rfl
@[simp] theorem State.writeBits_carrierMax (bs : List Bool) : (s.writeBits bs).carrierMax = s.carrierMax := rfl
@[simp] theorem State.writeBits_bitbufDepth (bs : List Bool) : (s.writeBits bs).bitbufDepth = s.bitbufDepth := rfl
@[simp] theorem State.writeBits_err (bs : List Bool) : (s.writeBits bs).err = s.err := rfl
@[simp] theorem State.writeBits_len (bs : List Bool) : (s.writeBits bs).len = s.len := rfl
@[simp] theorem State.writeBits_clen (bs : List Bool) : (s.writeBits bs).clen = s.clen := rfl
@[simp] theorem State.writeBits_bitlen (bs : List Bool) : (s.writeBits bs).bitlen = s.bitlen := rfl
@[simp] theorem State.writeBits_cap (bs : List Bool) : (s.writeBits bs).cap = s.cap := rfl
@[simp] theorem State.writeBits_pend (bs : List Bool) : (s.writeBits bs).pend = s.pend := rfl
@[simp] theorem State.writeBits_carrier (bs : List Bool) : (s.writeBits bs).carrier = s.carrier := rfl
@[simp] theorem State.writeBits_payload (bs : List Bool) : (s.writeBits bs).payload = s.payload := rfl
@[simp] theorem State.writeBits_bitbuf (bs : List Bool) : (s.writeBits bs).bitbuf = Memory.writeSeq s.bitbufFill s.bitbuf 0 bs := rfl
@[simp] theorem State.writeBits_epoch (bs : List Bool) : (s.writeBits bs).epoch = s.epoch := rfl
@[simp] theorem State.writeBits_draws (bs : List Bool) : (s.writeBits bs).draws = s.draws := rfl
@[simp] theorem State.writeBits_agenda (bs : List Bool) : (s.writeBits bs).agenda = s.agenda := rfl
@[simp] theorem State.writeBits_responses (bs : List Bool) : (s.writeBits bs).responses = s.responses := rfl
@[simp] theorem State.writeBits_carrierByte (bs : List Bool) (x : Nat) : (s.writeBits bs).carrierByte x = s.carrierByte x := rfl
@[simp] theorem State.writeBits_payloadByte (bs : List Bool) (x : Nat) : (s.writeBits bs).payloadByte x = s.payloadByte x := rfl
@[simp] theorem State.writeBits_markerBits (bs : List Bool) : (s.writeBits bs).markerBits = s.markerBits := rfl
@[simp] theorem State.writeBits_carrierBytes (bs : List Bool) (x : Nat) : (s.writeBits bs).carrierBytes x = s.carrierBytes x := rfl
@[simp] theorem State.writeBits_carrierLsbs (bs : List Bool) (x : Nat) : (s.writeBits bs).carrierLsbs x = s.carrierLsbs x := rfl
@[simp] theorem State.writeBits_payloadBytes (bs : List Bool) (x : Nat) : (s.writeBits bs).payloadBytes x = s.payloadBytes x := rfl
@[simp] theorem State.writeBits_carrierFill (bs : List Bool) : (s.writeBits bs).carrierFill = s.carrierFill := rfl
@[simp] theorem State.writeBits_payloadFill (bs : List Bool) : (s.writeBits bs).payloadFill = s.payloadFill := rfl
@[simp] theorem State.writeBits_bitbufFill (bs : List Bool) : (s.writeBits bs).bitbufFill = s.bitbufFill := rfl

/-! ### setLen -/

@[simp] theorem State.setLen_marker (n : BitVec 16) : (s.setLen n).marker = s.marker := rfl
@[simp] theorem State.setLen_carrierMax (n : BitVec 16) : (s.setLen n).carrierMax = s.carrierMax := rfl
@[simp] theorem State.setLen_bitbufDepth (n : BitVec 16) : (s.setLen n).bitbufDepth = s.bitbufDepth := rfl
@[simp] theorem State.setLen_err (n : BitVec 16) : (s.setLen n).err = s.err := rfl
@[simp] theorem State.setLen_len (n : BitVec 16) : (s.setLen n).len = n := rfl
@[simp] theorem State.setLen_clen (n : BitVec 16) : (s.setLen n).clen = s.clen := rfl
@[simp] theorem State.setLen_bitlen (n : BitVec 16) : (s.setLen n).bitlen = s.bitlen := rfl
@[simp] theorem State.setLen_cap (n : BitVec 16) : (s.setLen n).cap = s.cap := rfl
@[simp] theorem State.setLen_pend (n : BitVec 16) : (s.setLen n).pend = s.pend := rfl
@[simp] theorem State.setLen_carrier (n : BitVec 16) : (s.setLen n).carrier = s.carrier := rfl
@[simp] theorem State.setLen_payload (n : BitVec 16) : (s.setLen n).payload = s.payload := rfl
@[simp] theorem State.setLen_bitbuf (n : BitVec 16) : (s.setLen n).bitbuf = s.bitbuf := rfl
@[simp] theorem State.setLen_epoch (n : BitVec 16) : (s.setLen n).epoch = s.epoch := rfl
@[simp] theorem State.setLen_draws (n : BitVec 16) : (s.setLen n).draws = s.draws := rfl
@[simp] theorem State.setLen_agenda (n : BitVec 16) : (s.setLen n).agenda = s.agenda := rfl
@[simp] theorem State.setLen_responses (n : BitVec 16) : (s.setLen n).responses = s.responses := rfl
@[simp] theorem State.setLen_carrierByte (n : BitVec 16) (x : Nat) : (s.setLen n).carrierByte x = s.carrierByte x := rfl
@[simp] theorem State.setLen_payloadByte (n : BitVec 16) (x : Nat) : (s.setLen n).payloadByte x = s.payloadByte x := rfl
@[simp] theorem State.setLen_bit (n : BitVec 16) (x : Nat) : (s.setLen n).bit x = s.bit x := rfl
@[simp] theorem State.setLen_markerBits (n : BitVec 16) : (s.setLen n).markerBits = s.markerBits := rfl
@[simp] theorem State.setLen_carrierBytes (n : BitVec 16) (x : Nat) : (s.setLen n).carrierBytes x = s.carrierBytes x := rfl
@[simp] theorem State.setLen_carrierLsbs (n : BitVec 16) (x : Nat) : (s.setLen n).carrierLsbs x = s.carrierLsbs x := rfl
@[simp] theorem State.setLen_payloadBytes (n : BitVec 16) (x : Nat) : (s.setLen n).payloadBytes x = s.payloadBytes x := rfl
@[simp] theorem State.setLen_bits (n : BitVec 16) (x : Nat) : (s.setLen n).bits x = s.bits x := rfl
@[simp] theorem State.setLen_carrierFill (n : BitVec 16) : (s.setLen n).carrierFill = s.carrierFill := rfl
@[simp] theorem State.setLen_payloadFill (n : BitVec 16) : (s.setLen n).payloadFill = s.payloadFill := rfl
@[simp] theorem State.setLen_bitbufFill (n : BitVec 16) : (s.setLen n).bitbufFill = s.bitbufFill := rfl

/-! ### setClen -/

@[simp] theorem State.setClen_marker (v : Word) : (s.setClen v).marker = s.marker := rfl
@[simp] theorem State.setClen_carrierMax (v : Word) : (s.setClen v).carrierMax = s.carrierMax := rfl
@[simp] theorem State.setClen_bitbufDepth (v : Word) : (s.setClen v).bitbufDepth = s.bitbufDepth := rfl
@[simp] theorem State.setClen_err (v : Word) : (s.setClen v).err = s.err := rfl
@[simp] theorem State.setClen_len (v : Word) : (s.setClen v).len = s.len := rfl
@[simp] theorem State.setClen_clen (v : Word) : (s.setClen v).clen = v := rfl
@[simp] theorem State.setClen_bitlen (v : Word) : (s.setClen v).bitlen = s.bitlen := rfl
@[simp] theorem State.setClen_cap (v : Word) : (s.setClen v).cap = s.cap := rfl
@[simp] theorem State.setClen_pend (v : Word) : (s.setClen v).pend = s.pend := rfl
@[simp] theorem State.setClen_carrier (v : Word) : (s.setClen v).carrier = s.carrier := rfl
@[simp] theorem State.setClen_payload (v : Word) : (s.setClen v).payload = s.payload := rfl
@[simp] theorem State.setClen_bitbuf (v : Word) : (s.setClen v).bitbuf = s.bitbuf := rfl
@[simp] theorem State.setClen_epoch (v : Word) : (s.setClen v).epoch = s.epoch := rfl
@[simp] theorem State.setClen_draws (v : Word) : (s.setClen v).draws = s.draws := rfl
@[simp] theorem State.setClen_agenda (v : Word) : (s.setClen v).agenda = s.agenda := rfl
@[simp] theorem State.setClen_responses (v : Word) : (s.setClen v).responses = s.responses := rfl
@[simp] theorem State.setClen_carrierByte (v : Word) (x : Nat) : (s.setClen v).carrierByte x = s.carrierByte x := rfl
@[simp] theorem State.setClen_payloadByte (v : Word) (x : Nat) : (s.setClen v).payloadByte x = s.payloadByte x := rfl
@[simp] theorem State.setClen_bit (v : Word) (x : Nat) : (s.setClen v).bit x = s.bit x := rfl
@[simp] theorem State.setClen_markerBits (v : Word) : (s.setClen v).markerBits = s.markerBits := rfl
@[simp] theorem State.setClen_carrierBytes (v : Word) (x : Nat) : (s.setClen v).carrierBytes x = s.carrierBytes x := rfl
@[simp] theorem State.setClen_carrierLsbs (v : Word) (x : Nat) : (s.setClen v).carrierLsbs x = s.carrierLsbs x := rfl
@[simp] theorem State.setClen_payloadBytes (v : Word) (x : Nat) : (s.setClen v).payloadBytes x = s.payloadBytes x := rfl
@[simp] theorem State.setClen_bits (v : Word) (x : Nat) : (s.setClen v).bits x = s.bits x := rfl
@[simp] theorem State.setClen_carrierFill (v : Word) : (s.setClen v).carrierFill = s.carrierFill := rfl
@[simp] theorem State.setClen_payloadFill (v : Word) : (s.setClen v).payloadFill = s.payloadFill := rfl
@[simp] theorem State.setClen_bitbufFill (v : Word) : (s.setClen v).bitbufFill = s.bitbufFill := rfl

/-! ### setBitlen -/

@[simp] theorem State.setBitlen_marker (v : Word) : (s.setBitlen v).marker = s.marker := rfl
@[simp] theorem State.setBitlen_carrierMax (v : Word) : (s.setBitlen v).carrierMax = s.carrierMax := rfl
@[simp] theorem State.setBitlen_bitbufDepth (v : Word) : (s.setBitlen v).bitbufDepth = s.bitbufDepth := rfl
@[simp] theorem State.setBitlen_err (v : Word) : (s.setBitlen v).err = s.err := rfl
@[simp] theorem State.setBitlen_len (v : Word) : (s.setBitlen v).len = s.len := rfl
@[simp] theorem State.setBitlen_clen (v : Word) : (s.setBitlen v).clen = s.clen := rfl
@[simp] theorem State.setBitlen_bitlen (v : Word) : (s.setBitlen v).bitlen = v := rfl
@[simp] theorem State.setBitlen_cap (v : Word) : (s.setBitlen v).cap = s.cap := rfl
@[simp] theorem State.setBitlen_pend (v : Word) : (s.setBitlen v).pend = s.pend := rfl
@[simp] theorem State.setBitlen_carrier (v : Word) : (s.setBitlen v).carrier = s.carrier := rfl
@[simp] theorem State.setBitlen_payload (v : Word) : (s.setBitlen v).payload = s.payload := rfl
@[simp] theorem State.setBitlen_bitbuf (v : Word) : (s.setBitlen v).bitbuf = s.bitbuf := rfl
@[simp] theorem State.setBitlen_epoch (v : Word) : (s.setBitlen v).epoch = s.epoch := rfl
@[simp] theorem State.setBitlen_draws (v : Word) : (s.setBitlen v).draws = s.draws := rfl
@[simp] theorem State.setBitlen_agenda (v : Word) : (s.setBitlen v).agenda = s.agenda := rfl
@[simp] theorem State.setBitlen_responses (v : Word) : (s.setBitlen v).responses = s.responses := rfl
@[simp] theorem State.setBitlen_carrierByte (v : Word) (x : Nat) : (s.setBitlen v).carrierByte x = s.carrierByte x := rfl
@[simp] theorem State.setBitlen_payloadByte (v : Word) (x : Nat) : (s.setBitlen v).payloadByte x = s.payloadByte x := rfl
@[simp] theorem State.setBitlen_bit (v : Word) (x : Nat) : (s.setBitlen v).bit x = s.bit x := rfl
@[simp] theorem State.setBitlen_markerBits (v : Word) : (s.setBitlen v).markerBits = s.markerBits := rfl
@[simp] theorem State.setBitlen_carrierBytes (v : Word) (x : Nat) : (s.setBitlen v).carrierBytes x = s.carrierBytes x := rfl
@[simp] theorem State.setBitlen_carrierLsbs (v : Word) (x : Nat) : (s.setBitlen v).carrierLsbs x = s.carrierLsbs x := rfl
@[simp] theorem State.setBitlen_payloadBytes (v : Word) (x : Nat) : (s.setBitlen v).payloadBytes x = s.payloadBytes x := rfl
@[simp] theorem State.setBitlen_bits (v : Word) (x : Nat) : (s.setBitlen v).bits x = s.bits x := rfl
@[simp] theorem State.setBitlen_carrierFill (v : Word) : (s.setBitlen v).carrierFill = s.carrierFill := rfl
@[simp] theorem State.setBitlen_payloadFill (v : Word) : (s.setBitlen v).payloadFill = s.payloadFill := rfl
@[simp] theorem State.setBitlen_bitbufFill (v : Word) : (s.setBitlen v).bitbufFill = s.bitbufFill := rfl

/-! ### setCap -/

@[simp] theorem State.setCap_marker (v : Word) : (s.setCap v).marker = s.marker := rfl
@[simp] theorem State.setCap_carrierMax (v : Word) : (s.setCap v).carrierMax = s.carrierMax := rfl
@[simp] theorem State.setCap_bitbufDepth (v : Word) : (s.setCap v).bitbufDepth = s.bitbufDepth := rfl
@[simp] theorem State.setCap_err (v : Word) : (s.setCap v).err = s.err := rfl
@[simp] theorem State.setCap_len (v : Word) : (s.setCap v).len = s.len := rfl
@[simp] theorem State.setCap_clen (v : Word) : (s.setCap v).clen = s.clen := rfl
@[simp] theorem State.setCap_bitlen (v : Word) : (s.setCap v).bitlen = s.bitlen := rfl
@[simp] theorem State.setCap_cap (v : Word) : (s.setCap v).cap = v := rfl
@[simp] theorem State.setCap_pend (v : Word) : (s.setCap v).pend = s.pend := rfl
@[simp] theorem State.setCap_carrier (v : Word) : (s.setCap v).carrier = s.carrier := rfl
@[simp] theorem State.setCap_payload (v : Word) : (s.setCap v).payload = s.payload := rfl
@[simp] theorem State.setCap_bitbuf (v : Word) : (s.setCap v).bitbuf = s.bitbuf := rfl
@[simp] theorem State.setCap_epoch (v : Word) : (s.setCap v).epoch = s.epoch := rfl
@[simp] theorem State.setCap_draws (v : Word) : (s.setCap v).draws = s.draws := rfl
@[simp] theorem State.setCap_agenda (v : Word) : (s.setCap v).agenda = s.agenda := rfl
@[simp] theorem State.setCap_responses (v : Word) : (s.setCap v).responses = s.responses := rfl
@[simp] theorem State.setCap_carrierByte (v : Word) (x : Nat) : (s.setCap v).carrierByte x = s.carrierByte x := rfl
@[simp] theorem State.setCap_payloadByte (v : Word) (x : Nat) : (s.setCap v).payloadByte x = s.payloadByte x := rfl
@[simp] theorem State.setCap_bit (v : Word) (x : Nat) : (s.setCap v).bit x = s.bit x := rfl
@[simp] theorem State.setCap_markerBits (v : Word) : (s.setCap v).markerBits = s.markerBits := rfl
@[simp] theorem State.setCap_carrierBytes (v : Word) (x : Nat) : (s.setCap v).carrierBytes x = s.carrierBytes x := rfl
@[simp] theorem State.setCap_carrierLsbs (v : Word) (x : Nat) : (s.setCap v).carrierLsbs x = s.carrierLsbs x := rfl
@[simp] theorem State.setCap_payloadBytes (v : Word) (x : Nat) : (s.setCap v).payloadBytes x = s.payloadBytes x := rfl
@[simp] theorem State.setCap_bits (v : Word) (x : Nat) : (s.setCap v).bits x = s.bits x := rfl
@[simp] theorem State.setCap_carrierFill (v : Word) : (s.setCap v).carrierFill = s.carrierFill := rfl
@[simp] theorem State.setCap_payloadFill (v : Word) : (s.setCap v).payloadFill = s.payloadFill := rfl
@[simp] theorem State.setCap_bitbufFill (v : Word) : (s.setCap v).bitbufFill = s.bitbufFill := rfl

/-! ### issue -/

@[simp] theorem State.issue_marker (w : Word) : (s.issue w).marker = s.marker := rfl
@[simp] theorem State.issue_carrierMax (w : Word) : (s.issue w).carrierMax = s.carrierMax := rfl
@[simp] theorem State.issue_bitbufDepth (w : Word) : (s.issue w).bitbufDepth = s.bitbufDepth := rfl
@[simp] theorem State.issue_err (w : Word) : (s.issue w).err = .success := rfl
@[simp] theorem State.issue_len (w : Word) : (s.issue w).len = s.len := rfl
@[simp] theorem State.issue_clen (w : Word) : (s.issue w).clen = s.clen := rfl
@[simp] theorem State.issue_bitlen (w : Word) : (s.issue w).bitlen = s.bitlen := rfl
@[simp] theorem State.issue_cap (w : Word) : (s.issue w).cap = s.cap := rfl
@[simp] theorem State.issue_pend (w : Word) : (s.issue w).pend = some w := rfl
@[simp] theorem State.issue_carrier (w : Word) : (s.issue w).carrier = s.carrier := rfl
@[simp] theorem State.issue_payload (w : Word) : (s.issue w).payload = s.payload := rfl
@[simp] theorem State.issue_bitbuf (w : Word) : (s.issue w).bitbuf = s.bitbuf := rfl
@[simp] theorem State.issue_epoch (w : Word) : (s.issue w).epoch = s.epoch := rfl
@[simp] theorem State.issue_draws (w : Word) : (s.issue w).draws = s.draws := rfl
@[simp] theorem State.issue_agenda (w : Word) : (s.issue w).agenda = s.agenda := rfl
@[simp] theorem State.issue_responses (w : Word) : (s.issue w).responses = s.responses := rfl
@[simp] theorem State.issue_carrierByte (w : Word) (x : Nat) : (s.issue w).carrierByte x = s.carrierByte x := rfl
@[simp] theorem State.issue_payloadByte (w : Word) (x : Nat) : (s.issue w).payloadByte x = s.payloadByte x := rfl
@[simp] theorem State.issue_bit (w : Word) (x : Nat) : (s.issue w).bit x = s.bit x := rfl
@[simp] theorem State.issue_markerBits (w : Word) : (s.issue w).markerBits = s.markerBits := rfl
@[simp] theorem State.issue_carrierBytes (w : Word) (x : Nat) : (s.issue w).carrierBytes x = s.carrierBytes x := rfl
@[simp] theorem State.issue_carrierLsbs (w : Word) (x : Nat) : (s.issue w).carrierLsbs x = s.carrierLsbs x := rfl
@[simp] theorem State.issue_payloadBytes (w : Word) (x : Nat) : (s.issue w).payloadBytes x = s.payloadBytes x := rfl
@[simp] theorem State.issue_bits (w : Word) (x : Nat) : (s.issue w).bits x = s.bits x := rfl
@[simp] theorem State.issue_carrierFill (w : Word) : (s.issue w).carrierFill = s.carrierFill := rfl
@[simp] theorem State.issue_payloadFill (w : Word) : (s.issue w).payloadFill = s.payloadFill := rfl
@[simp] theorem State.issue_bitbufFill (w : Word) : (s.issue w).bitbufFill = s.bitbufFill := rfl

/-! ### finish -/

@[simp] theorem State.finish_marker : s.finish.marker = s.marker := rfl
@[simp] theorem State.finish_carrierMax : s.finish.carrierMax = s.carrierMax := rfl
@[simp] theorem State.finish_bitbufDepth : s.finish.bitbufDepth = s.bitbufDepth := rfl
@[simp] theorem State.finish_err : s.finish.err = .success := rfl
@[simp] theorem State.finish_len : s.finish.len = s.len := rfl
@[simp] theorem State.finish_clen : s.finish.clen = s.clen := rfl
@[simp] theorem State.finish_bitlen : s.finish.bitlen = s.bitlen := rfl
@[simp] theorem State.finish_cap : s.finish.cap = s.cap := rfl
@[simp] theorem State.finish_pend : s.finish.pend = none := rfl
@[simp] theorem State.finish_carrier : s.finish.carrier = s.carrier := rfl
@[simp] theorem State.finish_payload : s.finish.payload = s.payload := rfl
@[simp] theorem State.finish_bitbuf : s.finish.bitbuf = s.bitbuf := rfl
@[simp] theorem State.finish_epoch : s.finish.epoch = s.epoch := rfl
@[simp] theorem State.finish_draws : s.finish.draws = s.draws := rfl
@[simp] theorem State.finish_agenda : s.finish.agenda = s.agenda := rfl
@[simp] theorem State.finish_responses : s.finish.responses = s.responses := rfl
@[simp] theorem State.finish_carrierByte (x : Nat) : s.finish.carrierByte x = s.carrierByte x := rfl
@[simp] theorem State.finish_payloadByte (x : Nat) : s.finish.payloadByte x = s.payloadByte x := rfl
@[simp] theorem State.finish_bit (x : Nat) : s.finish.bit x = s.bit x := rfl
@[simp] theorem State.finish_markerBits : s.finish.markerBits = s.markerBits := rfl
@[simp] theorem State.finish_carrierBytes (x : Nat) : s.finish.carrierBytes x = s.carrierBytes x := rfl
@[simp] theorem State.finish_carrierLsbs (x : Nat) : s.finish.carrierLsbs x = s.carrierLsbs x := rfl
@[simp] theorem State.finish_payloadBytes (x : Nat) : s.finish.payloadBytes x = s.payloadBytes x := rfl
@[simp] theorem State.finish_bits (x : Nat) : s.finish.bits x = s.bits x := rfl
@[simp] theorem State.finish_carrierFill : s.finish.carrierFill = s.carrierFill := rfl
@[simp] theorem State.finish_payloadFill : s.finish.payloadFill = s.payloadFill := rfl
@[simp] theorem State.finish_bitbufFill : s.finish.bitbufFill = s.bitbufFill := rfl

/-! ### raise -/

@[simp] theorem State.raise_marker (e : ErrCode) : (s.raise e).marker = s.marker := rfl
@[simp] theorem State.raise_carrierMax (e : ErrCode) : (s.raise e).carrierMax = s.carrierMax := rfl
@[simp] theorem State.raise_bitbufDepth (e : ErrCode) : (s.raise e).bitbufDepth = s.bitbufDepth := rfl
@[simp] theorem State.raise_err (e : ErrCode) : (s.raise e).err = e := rfl
@[simp] theorem State.raise_len (e : ErrCode) : (s.raise e).len = s.len := rfl
@[simp] theorem State.raise_clen (e : ErrCode) : (s.raise e).clen = s.clen := rfl
@[simp] theorem State.raise_bitlen (e : ErrCode) : (s.raise e).bitlen = s.bitlen := rfl
@[simp] theorem State.raise_cap (e : ErrCode) : (s.raise e).cap = s.cap := rfl
@[simp] theorem State.raise_pend (e : ErrCode) : (s.raise e).pend = none := rfl
@[simp] theorem State.raise_carrier (e : ErrCode) : (s.raise e).carrier = s.carrier := rfl
@[simp] theorem State.raise_payload (e : ErrCode) : (s.raise e).payload = s.payload := rfl
@[simp] theorem State.raise_bitbuf (e : ErrCode) : (s.raise e).bitbuf = s.bitbuf := rfl
@[simp] theorem State.raise_epoch (e : ErrCode) : (s.raise e).epoch = s.epoch := rfl
@[simp] theorem State.raise_draws (e : ErrCode) : (s.raise e).draws = s.draws := rfl
@[simp] theorem State.raise_agenda (e : ErrCode) : (s.raise e).agenda = s.agenda := rfl
@[simp] theorem State.raise_responses (e : ErrCode) : (s.raise e).responses = s.responses := rfl
@[simp] theorem State.raise_carrierByte (e : ErrCode) (x : Nat) : (s.raise e).carrierByte x = s.carrierByte x := rfl
@[simp] theorem State.raise_payloadByte (e : ErrCode) (x : Nat) : (s.raise e).payloadByte x = s.payloadByte x := rfl
@[simp] theorem State.raise_bit (e : ErrCode) (x : Nat) : (s.raise e).bit x = s.bit x := rfl
@[simp] theorem State.raise_markerBits (e : ErrCode) : (s.raise e).markerBits = s.markerBits := rfl
@[simp] theorem State.raise_carrierBytes (e : ErrCode) (x : Nat) : (s.raise e).carrierBytes x = s.carrierBytes x := rfl
@[simp] theorem State.raise_carrierLsbs (e : ErrCode) (x : Nat) : (s.raise e).carrierLsbs x = s.carrierLsbs x := rfl
@[simp] theorem State.raise_payloadBytes (e : ErrCode) (x : Nat) : (s.raise e).payloadBytes x = s.payloadBytes x := rfl
@[simp] theorem State.raise_bits (e : ErrCode) (x : Nat) : (s.raise e).bits x = s.bits x := rfl
@[simp] theorem State.raise_carrierFill (e : ErrCode) : (s.raise e).carrierFill = s.carrierFill := rfl
@[simp] theorem State.raise_payloadFill (e : ErrCode) : (s.raise e).payloadFill = s.payloadFill := rfl
@[simp] theorem State.raise_bitbufFill (e : ErrCode) : (s.raise e).bitbufFill = s.bitbufFill := rfl

/-! ### rejectWord -/

@[simp] theorem State.rejectWord_marker : s.rejectWord.marker = s.marker := rfl
@[simp] theorem State.rejectWord_carrierMax : s.rejectWord.carrierMax = s.carrierMax := rfl
@[simp] theorem State.rejectWord_bitbufDepth : s.rejectWord.bitbufDepth = s.bitbufDepth := rfl
@[simp] theorem State.rejectWord_err : s.rejectWord.err = .illegalCommand := rfl
@[simp] theorem State.rejectWord_len : s.rejectWord.len = s.len := rfl
@[simp] theorem State.rejectWord_clen : s.rejectWord.clen = s.clen := rfl
@[simp] theorem State.rejectWord_bitlen : s.rejectWord.bitlen = s.bitlen := rfl
@[simp] theorem State.rejectWord_cap : s.rejectWord.cap = s.cap := rfl
@[simp] theorem State.rejectWord_pend : s.rejectWord.pend = none := rfl
@[simp] theorem State.rejectWord_carrier : s.rejectWord.carrier = s.carrier := rfl
@[simp] theorem State.rejectWord_payload : s.rejectWord.payload = s.payload := rfl
@[simp] theorem State.rejectWord_bitbuf : s.rejectWord.bitbuf = s.bitbuf := rfl
@[simp] theorem State.rejectWord_epoch : s.rejectWord.epoch = s.epoch := rfl
@[simp] theorem State.rejectWord_draws : s.rejectWord.draws = s.draws := rfl
@[simp] theorem State.rejectWord_agenda : s.rejectWord.agenda = s.agenda := rfl
@[simp] theorem State.rejectWord_responses : s.rejectWord.responses = s.responses := rfl
@[simp] theorem State.rejectWord_carrierByte (x : Nat) : s.rejectWord.carrierByte x = s.carrierByte x := rfl
@[simp] theorem State.rejectWord_payloadByte (x : Nat) : s.rejectWord.payloadByte x = s.payloadByte x := rfl
@[simp] theorem State.rejectWord_bit (x : Nat) : s.rejectWord.bit x = s.bit x := rfl
@[simp] theorem State.rejectWord_markerBits : s.rejectWord.markerBits = s.markerBits := rfl
@[simp] theorem State.rejectWord_carrierBytes (x : Nat) : s.rejectWord.carrierBytes x = s.carrierBytes x := rfl
@[simp] theorem State.rejectWord_carrierLsbs (x : Nat) : s.rejectWord.carrierLsbs x = s.carrierLsbs x := rfl
@[simp] theorem State.rejectWord_payloadBytes (x : Nat) : s.rejectWord.payloadBytes x = s.payloadBytes x := rfl
@[simp] theorem State.rejectWord_bits (x : Nat) : s.rejectWord.bits x = s.bits x := rfl
@[simp] theorem State.rejectWord_carrierFill : s.rejectWord.carrierFill = s.carrierFill := rfl
@[simp] theorem State.rejectWord_payloadFill : s.rejectWord.payloadFill = s.payloadFill := rfl
@[simp] theorem State.rejectWord_bitbufFill : s.rejectWord.bitbufFill = s.bitbufFill := rfl

/-! ### resetBlock -/

@[simp] theorem State.resetBlock_marker : s.resetBlock.marker = s.marker := rfl
@[simp] theorem State.resetBlock_carrierMax : s.resetBlock.carrierMax = s.carrierMax := rfl
@[simp] theorem State.resetBlock_bitbufDepth : s.resetBlock.bitbufDepth = s.bitbufDepth := rfl
@[simp] theorem State.resetBlock_err : s.resetBlock.err = .success := rfl
@[simp] theorem State.resetBlock_len : s.resetBlock.len = 0#16 := rfl
@[simp] theorem State.resetBlock_clen : s.resetBlock.clen = 0#32 := rfl
@[simp] theorem State.resetBlock_bitlen : s.resetBlock.bitlen = 0#32 := rfl
@[simp] theorem State.resetBlock_cap : s.resetBlock.cap = 0xFFFFFFFA#32 := rfl
@[simp] theorem State.resetBlock_pend : s.resetBlock.pend = none := rfl
@[simp] theorem State.resetBlock_carrier : s.resetBlock.carrier = [] := rfl
@[simp] theorem State.resetBlock_payload : s.resetBlock.payload = [] := rfl
@[simp] theorem State.resetBlock_bitbuf : s.resetBlock.bitbuf = [] := rfl
@[simp] theorem State.resetBlock_epoch : s.resetBlock.epoch = s.epoch + 1 := rfl
@[simp] theorem State.resetBlock_draws : s.resetBlock.draws = s.draws := rfl
@[simp] theorem State.resetBlock_agenda : s.resetBlock.agenda = s.agenda := rfl
@[simp] theorem State.resetBlock_responses : s.resetBlock.responses = s.responses := rfl
@[simp] theorem State.resetBlock_markerBits : s.resetBlock.markerBits = s.markerBits := rfl

/-! ### respond -/

@[simp] theorem State.respond_marker (r : Response) : (s.respond r).marker = s.marker := rfl
@[simp] theorem State.respond_carrierMax (r : Response) : (s.respond r).carrierMax = s.carrierMax := rfl
@[simp] theorem State.respond_bitbufDepth (r : Response) : (s.respond r).bitbufDepth = s.bitbufDepth := rfl
@[simp] theorem State.respond_err (r : Response) : (s.respond r).err = s.err := rfl
@[simp] theorem State.respond_len (r : Response) : (s.respond r).len = s.len := rfl
@[simp] theorem State.respond_clen (r : Response) : (s.respond r).clen = s.clen := rfl
@[simp] theorem State.respond_bitlen (r : Response) : (s.respond r).bitlen = s.bitlen := rfl
@[simp] theorem State.respond_cap (r : Response) : (s.respond r).cap = s.cap := rfl
@[simp] theorem State.respond_pend (r : Response) : (s.respond r).pend = s.pend := rfl
@[simp] theorem State.respond_carrier (r : Response) : (s.respond r).carrier = s.carrier := rfl
@[simp] theorem State.respond_payload (r : Response) : (s.respond r).payload = s.payload := rfl
@[simp] theorem State.respond_bitbuf (r : Response) : (s.respond r).bitbuf = s.bitbuf := rfl
@[simp] theorem State.respond_epoch (r : Response) : (s.respond r).epoch = s.epoch := rfl
@[simp] theorem State.respond_draws (r : Response) : (s.respond r).draws = s.draws := rfl
@[simp] theorem State.respond_agenda (r : Response) : (s.respond r).agenda = s.agenda := rfl
@[simp] theorem State.respond_responses (r : Response) : (s.respond r).responses = r :: s.responses := rfl
@[simp] theorem State.respond_carrierByte (r : Response) (x : Nat) : (s.respond r).carrierByte x = s.carrierByte x := rfl
@[simp] theorem State.respond_payloadByte (r : Response) (x : Nat) : (s.respond r).payloadByte x = s.payloadByte x := rfl
@[simp] theorem State.respond_bit (r : Response) (x : Nat) : (s.respond r).bit x = s.bit x := rfl
@[simp] theorem State.respond_markerBits (r : Response) : (s.respond r).markerBits = s.markerBits := rfl
@[simp] theorem State.respond_carrierBytes (r : Response) (x : Nat) : (s.respond r).carrierBytes x = s.carrierBytes x := rfl
@[simp] theorem State.respond_carrierLsbs (r : Response) (x : Nat) : (s.respond r).carrierLsbs x = s.carrierLsbs x := rfl
@[simp] theorem State.respond_payloadBytes (r : Response) (x : Nat) : (s.respond r).payloadBytes x = s.payloadBytes x := rfl
@[simp] theorem State.respond_bits (r : Response) (x : Nat) : (s.respond r).bits x = s.bits x := rfl
@[simp] theorem State.respond_carrierFill (r : Response) : (s.respond r).carrierFill = s.carrierFill := rfl
@[simp] theorem State.respond_payloadFill (r : Response) : (s.respond r).payloadFill = s.payloadFill := rfl
@[simp] theorem State.respond_bitbufFill (r : Response) : (s.respond r).bitbufFill = s.bitbufFill := rfl

/-! ### respondUnspecified -/

@[simp] theorem State.respondUnspecified_marker : s.respondUnspecified.marker = s.marker := rfl
@[simp] theorem State.respondUnspecified_carrierMax : s.respondUnspecified.carrierMax = s.carrierMax := rfl
@[simp] theorem State.respondUnspecified_bitbufDepth : s.respondUnspecified.bitbufDepth = s.bitbufDepth := rfl
@[simp] theorem State.respondUnspecified_err : s.respondUnspecified.err = s.err := rfl
@[simp] theorem State.respondUnspecified_len : s.respondUnspecified.len = s.len := rfl
@[simp] theorem State.respondUnspecified_clen : s.respondUnspecified.clen = s.clen := rfl
@[simp] theorem State.respondUnspecified_bitlen : s.respondUnspecified.bitlen = s.bitlen := rfl
@[simp] theorem State.respondUnspecified_cap : s.respondUnspecified.cap = s.cap := rfl
@[simp] theorem State.respondUnspecified_pend : s.respondUnspecified.pend = s.pend := rfl
@[simp] theorem State.respondUnspecified_carrier : s.respondUnspecified.carrier = s.carrier := rfl
@[simp] theorem State.respondUnspecified_payload : s.respondUnspecified.payload = s.payload := rfl
@[simp] theorem State.respondUnspecified_bitbuf : s.respondUnspecified.bitbuf = s.bitbuf := rfl
@[simp] theorem State.respondUnspecified_epoch : s.respondUnspecified.epoch = s.epoch := rfl
@[simp] theorem State.respondUnspecified_draws : s.respondUnspecified.draws = s.draws + 1 := rfl
@[simp] theorem State.respondUnspecified_agenda : s.respondUnspecified.agenda = s.agenda := rfl
@[simp] theorem State.respondUnspecified_responses : s.respondUnspecified.responses = .data32 (Config.busyRead s.draws) :: s.responses := rfl
@[simp] theorem State.respondUnspecified_carrierByte (x : Nat) : s.respondUnspecified.carrierByte x = s.carrierByte x := rfl
@[simp] theorem State.respondUnspecified_payloadByte (x : Nat) : s.respondUnspecified.payloadByte x = s.payloadByte x := rfl
@[simp] theorem State.respondUnspecified_bit (x : Nat) : s.respondUnspecified.bit x = s.bit x := rfl
@[simp] theorem State.respondUnspecified_markerBits : s.respondUnspecified.markerBits = s.markerBits := rfl
@[simp] theorem State.respondUnspecified_carrierBytes (x : Nat) : s.respondUnspecified.carrierBytes x = s.carrierBytes x := rfl
@[simp] theorem State.respondUnspecified_carrierLsbs (x : Nat) : s.respondUnspecified.carrierLsbs x = s.carrierLsbs x := rfl
@[simp] theorem State.respondUnspecified_payloadBytes (x : Nat) : s.respondUnspecified.payloadBytes x = s.payloadBytes x := rfl
@[simp] theorem State.respondUnspecified_bits (x : Nat) : s.respondUnspecified.bits x = s.bits x := rfl
@[simp] theorem State.respondUnspecified_carrierFill : s.respondUnspecified.carrierFill = s.carrierFill := rfl
@[simp] theorem State.respondUnspecified_payloadFill : s.respondUnspecified.payloadFill = s.payloadFill := rfl
@[simp] theorem State.respondUnspecified_bitbufFill : s.respondUnspecified.bitbufFill = s.bitbufFill := rfl

end Sys2Proof.Machine
end

