-- ==== Sys2Proof/Laws/Ops.lean ====
section
/-!
SUPPORT. What each shared operation over the state can do, said once per operation: the operand reads,
STATUS after each end of a command, the turns still to come, the sequence writes, the LSB writes, and the end of a decode.
-/

namespace Sys2Proof.Machine

variable (s : State)

/-! ### STATUS -/

/-- STATUS depends on ERR and PEND alone. -/
theorem status_congr {s t : State} (he : t.err = s.err) (hp : t.pend = s.pend) : t.status = s.status := by
  unfold State.status State.busy
  rw [he, hp]

theorem status_of {s : State} {e : ErrCode} {b : Bool} (he : s.err = e) (hb : s.busy = b) :
    s.status = 0#24 ++ errValue e ++ 0#3 ++ BitVec.ofBool b := by
  rw [State.status, he, hb]

@[simp] theorem State.issue_status (w : Word) : (s.issue w).status = 0x00000001#32 :=
  (status_of (e := .success) (b := true) rfl rfl).trans (by decide)
@[simp] theorem State.finish_status : s.finish.status = 0x00000000#32 :=
  (status_of (e := .success) (b := false) rfl rfl).trans (by decide)
@[simp] theorem State.raise_status (e : ErrCode) : (s.raise e).status = 0#24 ++ errValue e ++ 0#4 :=
  (status_of (e := e) (b := false) rfl rfl).trans (by cases e <;> decide)
@[simp] theorem State.rejectWord_status : s.rejectWord.status = 0x00000050#32 :=
  (State.raise_status s _).trans (by decide)
@[simp] theorem State.resetBlock_status : s.resetBlock.status = 0x00000000#32 :=
  (status_of (e := .success) (b := false) rfl rfl).trans (by decide)
@[simp] theorem State.respond_status (r : Response) : (s.respond r).status = s.status := rfl

/-! ### The turns still to come -/

theorem hostDone_of_nil (h : s.agenda = []) : s.hostDone = true := by rw [State.hostDone, h]; rfl

theorem hostDone_of_engine {rest : List Turn} (h : s.agenda = .engine :: rest) :
    s.hostDone = State.hostDone { s with agenda := rest } := by rw [State.hostDone, h]; rfl

theorem hostDone_of_access {x : Access} {rest : List Turn} (h : s.agenda = .access x :: rest) :
    s.hostDone = false := by rw [State.hostDone, h]; rfl

theorem hostDone_of_reset {rest : List Turn} (h : s.agenda = .reset :: rest) : s.hostDone = false := by
  rw [State.hostDone, h]; rfl

/-! ### Operand reads -/

@[simp] theorem length_carrierBytes (n : Nat) : (s.carrierBytes n).length = n := Memory.length_readSeq _ _
@[simp] theorem length_payloadBytes (n : Nat) : (s.payloadBytes n).length = n := Memory.length_readSeq _ _
@[simp] theorem length_bits (n : Nat) : (s.bits n).length = n := Memory.length_readSeq _ _
@[simp] theorem length_carrierLsbs (n : Nat) : (s.carrierLsbs n).length = n := by simp [State.carrierLsbs]

theorem getElem?_carrierBytes (n k : Nat) :
    (s.carrierBytes n)[k]? = if k < n then some (s.carrierByte k) else none := Memory.getElem?_readSeq _ _ _

theorem getElem?_payloadBytes (n k : Nat) :
    (s.payloadBytes n)[k]? = if k < n then some (s.payloadByte k) else none := Memory.getElem?_readSeq _ _ _

theorem getElem?_bits (n k : Nat) :
    (s.bits n)[k]? = if k < n then some (s.bit k) else none := Memory.getElem?_readSeq _ _ _

theorem getElem?_carrierLsbs (n k : Nat) :
    (s.carrierLsbs n)[k]? = if k < n then some (lsbGet (s.carrierByte k)) else none := by
  rw [State.carrierLsbs, List.getElem?_map, getElem?_carrierBytes]
  split <;> rfl

theorem length_markerBits : s.markerBits.length = 32 := length_bitsMsbFirst _

theorem length_frame_state (p : List Byte) (n : BitVec 16) :
    (frame s.markerBits n p).length = 48 + 8 * p.length := by
  rw [length_frame, length_markerBits]

/-! ### Writes of one element -/

theorem carrierByte_setCarrierByte (i : Nat) (v : Byte) (x : Nat) :
    (s.setCarrierByte i v).carrierByte x = if x = i then v else s.carrierByte x := Memory.read_write _ _ _ _

theorem payloadByte_setPayloadByte (j : Nat) (v : Byte) (x : Nat) :
    (s.setPayloadByte j v).payloadByte x = if x = j then v else s.payloadByte x := Memory.read_write _ _ _ _

theorem bit_setBit (k : Nat) (b : Bool) (x : Nat) :
    (s.setBit k b).bit x = if x = k then b else s.bit x := Memory.read_write _ _ _ _

/-! ### Writes of a sequence from element 0 on -/

theorem carrierByte_writeCarrier (vs : List Byte) (x : Nat) :
    (s.writeCarrier vs).carrierByte x = (vs[x]?).getD (s.carrierByte x) := by
  refine (Memory.read_writeSeq _ _ _ _).trans ?_
  simp [State.carrierByte]

theorem payloadByte_writePayload (vs : List Byte) (x : Nat) :
    (s.writePayload vs).payloadByte x = (vs[x]?).getD (s.payloadByte x) := by
  refine (Memory.read_writeSeq _ _ _ _).trans ?_
  simp [State.payloadByte]

theorem bit_writeBits (bs : List Bool) (x : Nat) :
    (s.writeBits bs).bit x = (bs[x]?).getD (s.bit x) := by
  refine (Memory.read_writeSeq _ _ _ _).trans ?_
  simp [State.bit]

theorem bits_writeBits_eq (bs : List Bool) (n : Nat) :
    (s.writeBits bs).bits n = (List.range n).map fun x => (bs[x]?).getD (s.bit x) :=
  List.map_congr_left fun x _ => bit_writeBits s bs x

theorem payloadBytes_writePayload_eq (vs : List Byte) (n : Nat) :
    (s.writePayload vs).payloadBytes n = (List.range n).map fun x => (vs[x]?).getD (s.payloadByte x) :=
  List.map_congr_left fun x _ => payloadByte_writePayload s vs x

/-- The held bit sequence reads back as it was written. -/
theorem bits_writeBits (bs : List Bool) : (s.writeBits bs).bits bs.length = bs := Memory.readSeq_writeSeq _ _

/-- The payload reads back as it was written. -/
theorem payloadBytes_writePayload (vs : List Byte) : (s.writePayload vs).payloadBytes vs.length = vs :=
  Memory.readSeq_writeSeq _ _

/-! ### LSB writes -/

/-- `putLsbs` replaces the LSB of the first carrier bytes and leaves every other byte alone. -/
theorem carrierByte_putLsbs (bs : List Bool) (x : Nat) :
    (s.putLsbs bs).carrierByte x = if h : x < bs.length then lsbPut (s.carrierByte x) bs[x] else s.carrierByte x := by
  rw [State.putLsbs, carrierByte_writeCarrier, List.getElem?_zipWith, getElem?_carrierBytes]
  by_cases h : x < bs.length
  · rw [if_pos h, dif_pos h, List.getElem?_eq_getElem h]; rfl
  · rw [if_neg h, dif_neg h]; rfl

theorem carrierBytes_putLsbs (bs : List Bool) (n : Nat) :
    (s.putLsbs bs).carrierBytes n =
      (List.range n).map fun x => if h : x < bs.length then lsbPut (s.carrierByte x) bs[x] else s.carrierByte x :=
  List.map_congr_left fun x _ => carrierByte_putLsbs s bs x

/-- `putLsbs` changes CARRIER only. -/
theorem putLsbs_frame (bs : List Bool) : s.putLsbs bs = { s with carrier := (s.putLsbs bs).carrier } := rfl

/-- The LSBs just written read back. -/
theorem carrierLsbs_putLsbs (bs : List Bool) (n : Nat) (h : bs.length ≤ n) :
    (s.putLsbs bs).carrierLsbs n = bs ++ (s.carrierLsbs n).drop bs.length := by
  apply List.ext_getElem?
  intro k
  rw [getElem?_carrierLsbs, carrierByte_putLsbs, List.getElem?_append, List.getElem?_drop, getElem?_carrierLsbs]
  by_cases hk : k < bs.length
  · rw [dif_pos hk, if_pos (by omega), if_pos hk, lsbGet_lsbPut, List.getElem?_eq_getElem hk]
  · rw [dif_neg hk, if_neg hk, show bs.length + (k - bs.length) = k by omega]

/-! ### The end of a decode -/

theorem acceptParsed_raise (e : ErrCode) : s.acceptParsed (.error e) = s.raise e := rfl

theorem acceptParsed_finish (n : BitVec 16) (q : List Byte) :
    s.acceptParsed (.ok (n, q)) = ((s.writePayload q).setLen n).finish := rfl

/-- On an error of `parse` the state changes in ERR and PEND only. -/
theorem acceptParsed_error {r : Except ErrCode (BitVec 16 × List Byte)} {e : ErrCode} (h : r = .error e) :
    s.acceptParsed r = { s with err := e, pend := none } := by subst h; rfl

/-- On a success PAYLOAD, LEN, ERR and PEND change, and nothing else. -/
theorem acceptParsed_ok {r : Except ErrCode (BitVec 16 × List Byte)} {n : BitVec 16} {q : List Byte}
    (h : r = .ok (n, q)) :
    s.acceptParsed r = { s with payload := (s.writePayload q).payload, len := n, err := .success, pend := none } := by
  subst h; rfl

end Sys2Proof.Machine
end

