-- ==== Sys2Proof/Laws/Commands.lean ====
section
/-!
SUPPORT. What each command answers, one equation per command and outcome, and what one turn and one run can do, so that
later proofs cite these and unfold neither `exec` nor `step`.
-/

namespace Sys2Proof.Machine

variable (s : State)

/-! ### The answer of each command -/

theorem exec_nop : exec .nop s = .next s.finish := rfl

theorem exec_frEnc :
    exec .frEnc s = .next ((s.writeBits (frame s.markerBits s.len (s.payloadBytes s.len.toNat))).setBitlen
      (BitVec.ofNat 32 (frameBits s.len.toNat))).finish := rfl

theorem exec_frDec : exec .frDec s = .next (s.acceptParsed (parse s.markerBits (s.bits s.bitlen.toNat))) := rfl

theorem exec_bcWr_fits (h : s.bitlen.toNat ≤ s.clen.toNat) :
    exec .bcWr s = .next (s.putLsbs (s.bits s.bitlen.toNat)).finish := if_neg (Nat.not_lt.mpr h)

theorem exec_bcWr_refused (h : s.clen.toNat < s.bitlen.toNat) :
    exec .bcWr s = .next (s.raise .contractViolation) := if_pos h

theorem exec_bcRd :
    exec .bcRd s = .next ((s.writeBits (s.carrierLsbs s.bcRdCount)).setBitlen
      (BitVec.ofNat 32 s.bcRdCount)).finish := rfl

theorem exec_capacity :
    exec .capacity s = .next (s.setCap (BitVec.ofInt 32 (available s.clen.toNat))).finish := rfl

theorem exec_encode_fits (h : frameBits s.len.toNat ≤ s.clen.toNat) :
    exec .encode s = .next (s.putLsbs (frame s.markerBits s.len (s.payloadBytes s.len.toNat))).finish :=
  if_neg (Nat.not_lt.mpr h)

theorem exec_encode_refused (h : s.clen.toNat < frameBits s.len.toNat) :
    exec .encode s = .next (s.raise .capacityExceeded) := if_pos h

theorem exec_decode : exec .decode s = .next (s.acceptParsed (parse s.markerBits (s.carrierLsbs s.clen.toNat))) := rfl

/-- Every command answers a next state. -/
theorem exec_next (i : Instr) : ∃ t, exec i s = .next t := by
  cases i
  case bcWr =>
    rcases Nat.lt_or_ge s.clen.toNat s.bitlen.toNat with h | h
    · exact ⟨_, exec_bcWr_refused s h⟩
    · exact ⟨_, exec_bcWr_fits s h⟩
  case encode =>
    rcases Nat.lt_or_ge s.clen.toNat (frameBits s.len.toNat) with h | h
    · exact ⟨_, exec_encode_refused s h⟩
    · exact ⟨_, exec_encode_fits s h⟩
  all_goals exact ⟨_, rfl⟩

/-! ### The turns -/

variable {s} {t : State}

theorem step_of_nil (h : s.agenda = []) : step s = engineTurn s := by simp only [step, h]

theorem step_of_engine {rest : List Turn} (h : s.agenda = .engine :: rest) :
    step s = engineTurn { s with agenda := rest } := by simp only [step, h]

theorem step_of_reset {rest : List Turn} (h : s.agenda = .reset :: rest) :
    step s = .next (State.resetBlock { s with agenda := rest }) := by simp only [step, h]

theorem step_of_access {x : Access} {rest : List Turn} (h : s.agenda = .access x :: rest) :
    step s = .next (State.hostAccess { s with agenda := rest } x) := by simp only [step, h]

theorem engineTurn_of_idle (h : s.pend = none) : engineTurn s = .next s := by simp only [engineTurn, h]

theorem engineTurn_of_command {w : Word} {i : Instr} (h : s.pend = some w) (hd : decodeCommand w = .ok i) :
    engineTurn s = exec i s := by simp only [engineTurn, h, hd]

theorem engineTurn_of_illegal {w : Word} {e : DecodeError} (h : s.pend = some w) (hd : decodeCommand w = .error e) :
    engineTurn s = .next s.rejectWord := by simp only [engineTurn, h, hd]

/-- The cases of the Engine's turn. -/
theorem engineTurn_cases (h : engineTurn s = .next t) :
    (s.pend = none ∧ t = s) ∨
    (∃ w i, s.pend = some w ∧ decodeCommand w = .ok i ∧ exec i s = .next t) ∨
    (∃ w e, s.pend = some w ∧ decodeCommand w = .error e ∧ t = s.rejectWord) := by
  unfold engineTurn at h
  split at h
  · cases h; exact .inl ⟨‹_›, rfl⟩
  · split at h
    · exact .inr (.inl ⟨_, _, ‹_›, ‹_›, h⟩)
    · cases h; exact .inr (.inr ⟨_, _, ‹_›, ‹_›, rfl⟩)

/-- The cases of one step: the Engine's turn, a reset, or one host access. -/
theorem step_cases (h : step s = .next t) :
    (∃ u, (s.agenda = [] ∧ u = s ∨ s.agenda = .engine :: u.agenda ∧ u = { s with agenda := u.agenda }) ∧
      engineTurn u = .next t) ∨
    (∃ rest, s.agenda = .reset :: rest ∧ t = State.resetBlock { s with agenda := rest }) ∨
    (∃ x rest, s.agenda = .access x :: rest ∧ t = State.hostAccess { s with agenda := rest } x) := by
  unfold step at h
  split at h
  · exact .inl ⟨s, .inl ⟨‹_›, rfl⟩, h⟩
  · exact .inl ⟨_, .inr ⟨‹_›, rfl⟩, h⟩
  · cases h; exact .inr (.inl ⟨_, ‹_›, rfl⟩)
  · cases h; exact .inr (.inr ⟨_, _, ‹_›, rfl⟩)

/-! ### Runs -/

theorem run_zero : Sys2Proof.core.run 0 s = .next s := rfl

theorem run_succ (k : Nat) (h : step s = .next t) : Sys2Proof.core.run (k + 1) s = Sys2Proof.core.run k t := by
  have h' : Sys2Proof.core.step s = .next t := h
  simp only [Host.Core.run, h']

/-- A run that answers a next state takes a step that does, and goes on from there. -/
theorem run_succ_next {k : Nat} (h : Sys2Proof.core.run (k + 1) s = .next t) :
    ∃ u, step s = .next u ∧ Sys2Proof.core.run k u = .next t := by
  simp only [Host.Core.run] at h
  split at h
  · exact ⟨_, ‹_›, h⟩
  · cases h
  · cases h

end Sys2Proof.Machine
end

