-- ==== Sys2Proof/Laws/Bus.lean ====
section
/-!
SUPPORT. What a host access can do, said once (20_memory.md R50 to R59, 70_reset_and_hazards.md R194).
-/

namespace Sys2Proof.Machine

variable (s : State)

/-- The registers are the nine aligned offsets from 0x000 to 0x020. -/
theorem regAt_isSome_iff (n : Nat) : (∃ r, regAt n = some r) ↔ n < 0x24 ∧ n % 4 = 0 := by
  unfold regAt
  repeat' split
  all_goals simp_all
  omega

/-- An address is a register's exactly when the register stands at that offset. -/
theorem regionAt_register_iff (a : Word) (r : Reg) : s.regionAt a = .register r ↔ regAt a.toNat = some r := by
  unfold State.regionAt
  simp only
  split
  · split
    · rename_i h; simp [h]
    · rename_i h; simp [h]
  · have hn : regAt a.toNat ≠ some r := fun h => by
      have := (regAt_isSome_iff a.toNat).mp ⟨r, h⟩
      omega
    simp only [hn, iff_false]
    repeat' split
    all_goals simp

/-- The element a memory window's address names exists. -/
theorem regionAt_within (a : Word) :
    (∀ j, s.regionAt a = .payload j → j < 65535) ∧
    (∀ k, s.regionAt a = .bitbuf k → k < s.bitbufDepth.toNat) ∧
    (∀ i, s.regionAt a = .carrier i → i < s.carrierMax.toNat) := by
  unfold State.regionAt
  simp only
  split
  · split <;> simp
  · split
    · simp; omega
    · split
      · simp; omega
      · split
        · simp; omega
        · simp

/-- A register read adds one response with data, and at most a draw. -/
theorem readReg_eq (r : Reg) : ∃ v d, s.readReg r = { s with responses := .data32 v :: s.responses, draws := d } := by
  have hv (x : Word) : ∃ v d, s.respondVolatile x = { s with responses := .data32 v :: s.responses, draws := d } := by
    unfold State.respondVolatile
    split <;> exact ⟨_, _, rfl⟩
  cases r <;> first | exact hv _ | exact ⟨_, s.draws, rfl⟩

/-- Everything a host access can do: add one response (and take a draw), or, with no command in flight, issue a word or
store a legal value in LEN, CLEN, BITLEN or one memory element that exists. -/
theorem hostAccess_cases (x : Access) :
    (∃ r d, s.hostAccess x = { s with responses := r :: s.responses, draws := d }) ∨
    (s.pend = none ∧ ∃ u, s.hostAccess x = u.respond .written ∧
      ((∃ w, x = .write32 0x04#32 w ∧ u = s.issue w) ∨ (∃ n, u = s.setLen n) ∨
       (∃ v, v.toNat ≤ s.carrierMax.toNat ∧ u = s.setClen v) ∨
       (∃ v, v.toNat ≤ s.bitbufDepth.toNat ∧ u = s.setBitlen v) ∨
       (∃ j v, j < 65535 ∧ u = s.setPayloadByte j v) ∨
       (∃ k b, k < s.bitbufDepth.toNat ∧ u = s.setBit k b) ∨
       (∃ i v, i < s.carrierMax.toNat ∧ u = s.setCarrierByte i v))) := by
  have idle : ¬ s.busy = true → s.pend = none := by
    unfold State.busy
    cases s.pend <;> simp
  have refused : s.respond .buserr = { s with responses := .buserr :: s.responses, draws := s.draws } := rfl
  cases x with
  | read32 a =>
    left
    simp only [State.hostAccess, State.read32]
    cases s.regionAt a with
    | register r => obtain ⟨v, d, e⟩ := readReg_eq s r; exact ⟨_, _, e⟩
    | payload _ => exact ⟨_, _, refused⟩
    | bitbuf _ => exact ⟨_, _, refused⟩
    | carrier _ => exact ⟨_, _, refused⟩
    | none => exact ⟨_, _, refused⟩
  | read8 a =>
    left
    simp only [State.hostAccess, State.read8]
    split
    · exact ⟨_, _, refused⟩
    · cases s.regionAt a <;> exact ⟨_, s.draws, rfl⟩
  | write8 a v =>
    simp only [State.hostAccess, State.write8]
    obtain ⟨hj, hk, hi⟩ := regionAt_within s a
    split
    · exact .inl ⟨_, _, refused⟩
    · have hp := idle ‹_›
      cases hr : s.regionAt a with
      | register _ => exact .inl ⟨_, _, refused⟩
      | payload j => exact .inr ⟨hp, _, rfl, .inr (.inr (.inr (.inr (.inl ⟨_, _, hj j hr, rfl⟩))))⟩
      | bitbuf k => exact .inr ⟨hp, _, rfl, .inr (.inr (.inr (.inr (.inr (.inl ⟨_, _, hk k hr, rfl⟩)))))⟩
      | carrier i => exact .inr ⟨hp, _, rfl, .inr (.inr (.inr (.inr (.inr (.inr ⟨_, _, hi i hr, rfl⟩)))))⟩
      | none => exact .inl ⟨_, _, refused⟩
  | write32 a v =>
    simp only [State.hostAccess, State.write32]
    split
    · exact .inl ⟨_, _, refused⟩
    · have hp := idle ‹_›
      cases hr : s.regionAt a with
      | register r =>
        cases r <;> simp only [State.writeReg]
        case cmd =>
          refine .inr ⟨hp, _, rfl, .inl ⟨v, ?_, rfl⟩⟩
          have h := (regionAt_register_iff s a _).mp hr
          congr 1
          apply BitVec.eq_of_toNat_eq
          unfold regAt at h
          repeat' split at h
          all_goals first | assumption | cases h
        case len =>
          split
          · exact .inr ⟨hp, _, rfl, .inr (.inl ⟨_, rfl⟩)⟩
          · exact .inl ⟨_, _, refused⟩
        case clen =>
          split
          · exact .inr ⟨hp, _, rfl, .inr (.inr (.inl ⟨_, ‹_›, rfl⟩))⟩
          · exact .inl ⟨_, _, refused⟩
        case bitlen =>
          split
          · exact .inr ⟨hp, _, rfl, .inr (.inr (.inr (.inl ⟨_, ‹_›, rfl⟩)))⟩
          · exact .inl ⟨_, _, refused⟩
        all_goals exact .inl ⟨_, _, refused⟩
      | payload _ => exact .inl ⟨_, _, refused⟩
      | bitbuf _ => exact .inl ⟨_, _, refused⟩
      | carrier _ => exact .inl ⟨_, _, refused⟩
      | none => exact .inl ⟨_, _, refused⟩

end Sys2Proof.Machine
end

