-- ==== Sys2Proof/Laws/PerInstr.lean ====
section
/-!
SUPPORT. Statements made per instruction. The family `WordForm`: the command word of an instruction is legal, has its
reserved bits clear and its opcode in OP, and decodes to the instruction (30_encoding.md R80, R81).
-/

namespace Sys2Proof.Laws.WordForm

/-- What the family says of one instruction. -/
def Statement (i : Instr) : Prop :=
  i.wf = true ∧ wordWellFormed (encodeCommand i) = true ∧ rsvField (encodeCommand i) = 0#24 ∧
  opField (encodeCommand i) = opcodeOf i ∧ decodeCommand (encodeCommand i) = .ok i

theorem nop : Statement .nop := ⟨rfl, by decide, by decide, by decide, rfl⟩
theorem frEnc : Statement .frEnc := ⟨rfl, by decide, by decide, by decide, rfl⟩
theorem frDec : Statement .frDec := ⟨rfl, by decide, by decide, by decide, rfl⟩
theorem bcWr : Statement .bcWr := ⟨rfl, by decide, by decide, by decide, rfl⟩
theorem bcRd : Statement .bcRd := ⟨rfl, by decide, by decide, by decide, rfl⟩
theorem capacity : Statement .capacity := ⟨rfl, by decide, by decide, by decide, rfl⟩
theorem encode : Statement .encode := ⟨rfl, by decide, by decide, by decide, rfl⟩
theorem decode : Statement .decode := ⟨rfl, by decide, by decide, by decide, rfl⟩

end Sys2Proof.Laws.WordForm
end

