-- ==== Sys2Proof/Tests/Slice0.lean ====
section
/-!
SUPPORT. The model's own tests: expected values are the spec's worked examples and vectors (95_test_vectors.md), named in
each comment; then, for each statement of Certificates/Slice0/Obligations.lean that has hypotheses, a state and operands that
meet them.
-/

namespace Sys2Proof.Tests

open Sys2Proof.Machine Sys2Proof.Machine.Claims

/-- The test instance of 95_test_vectors.md: marker 0xA5C30F96, CARRIER_MAX = 1000, BITBUF_DEPTH = 524328. -/
def testState : State :=
  { State.reset with marker := 0xA5C30F96#32, carrierMax := 1000#32, bitbufDepth := 524328#32 }

/-- A memory that lists these values from element 0 on. -/
def listed {α : Type} (l : List α) : List (Nat × α) := l.zipIdx.map fun c => (c.2, c.1)

/-- A bit sequence written with 0 and 1. -/
def bitList (l : List Nat) : List Bool := l.map fun n => n == 1

/-- The test marker, element 0 first (95_test_vectors.md). -/
def markerList : List Bool := bitList
  ([1, 0, 1, 0, 0, 1, 0, 1, 1, 1, 0, 0, 0, 0, 1, 1] ++
   [0, 0, 0, 0, 1, 1, 1, 1, 1, 0, 0, 1, 0, 1, 1, 0])

/-- V-FR-2: the frame of the one byte 0x41. -/
def frame41 : List Bool := markerList ++ bitList
  ([0, 0, 0, 0, 0, 0, 0, 0, 0, 0, 0, 0, 0, 0, 0, 1] ++ [0, 1, 0, 0, 0, 0, 0, 1])

/-- The frame of the empty payload, V-FR-1. -/
def frame0 : List Bool := markerList ++ bitList [0, 0, 0, 0, 0, 0, 0, 0, 0, 0, 0, 0, 0, 0, 0, 0]

/-- CARRIER after ENCODE in program P1. -/
def p1Carrier : List Byte :=
  [0x11, 0x10, 0x11, 0x10, 0x10, 0x11, 0x10, 0x11, 0x11, 0x11, 0x10, 0x10, 0x10, 0x10, 0x11, 0x11] ++
  [0x10, 0x10, 0x10, 0x10, 0x11, 0x11, 0x11, 0x11, 0x11, 0x10, 0x10, 0x11, 0x10, 0x11, 0x11, 0x10] ++
  [0x10, 0x10, 0x10, 0x10, 0x10, 0x10, 0x10, 0x10, 0x10, 0x10, 0x10, 0x10, 0x10, 0x10, 0x11, 0x10] ++
  [0x10, 0x11, 0x10, 0x10, 0x11, 0x10, 0x10, 0x10, 0x10, 0x11, 0x11, 0x10, 0x11, 0x10, 0x10, 0x11]

/-- `testState` with the frame V-FR-2 in BITBUF. -/
def withFrame41 (bitlen : Nat) : State :=
  { testState with bitbuf := listed frame41, bitlen := BitVec.ofNat 32 bitlen, len := 9#16 }

/-- `testState` with the carrier of P1 after ENCODE. -/
def withP1 (clen : Nat) : State := { testState with carrier := listed p1Carrier, clen := BitVec.ofNat 32 clen }

/-- `testState` with the carrier and payload of P1 before ENCODE. -/
def beforeP1 (clen : Nat) : State :=
  { testState with
    carrier := listed (List.replicate 64 0x10#8), payload := listed [0x48#8, 0x69#8], len := 2#16
    clen := BitVec.ofNat 32 clen }

/-- V-BW-1. -/
def bw1 (clen : Nat) : State :=
  { testState with
    carrier := listed [0xFF#8, 0x00#8, 0x7E#8, 0x81#8], bitbuf := listed (bitList [0, 1, 1, 1]), bitlen := 4#32
    clen := BitVec.ofNat 32 clen }

/-- What a step answers, if it is a next state. -/
def after (o : Host.Outcome State Fault Refusal) : Option State :=
  match o with
  | .next t => some t
  | .fault _ => none
  | .refused _ => none

/-- The next turns of the host and the Engine, put before `s`. -/
def withTurns (s : State) (l : List Turn) : State := { s with agenda := l }

/-! ### Well-formedness and decoding (30_encoding.md R81, R82; 95_test_vectors.md 2.9) -/

/-- V-IL-6, V-IL-8: a reserved bit is set. -/
theorem test_reserved_bits_refused : rsvClear 0x00000105#32 = false ∧ wordWellFormed 0x00000100#32 = false := by decide

/-- V-IL-2, V-IL-4: the opcode is not assigned. -/
theorem test_unassigned_opcode_refused : opcodeAssigned 0x00000005#32 = false ∧ wordWellFormed 0x00000013#32 = false := by decide

/-! Each command's word, written bit by bit: RSV = 0, then OP (30_encoding.md R80, R81). -/

theorem test_decode_nop : decodeCommand 0b00000000000000000000000000000000#32 = .ok .nop := rfl
theorem test_decode_frEnc : decodeCommand 0b00000000000000000000000000000001#32 = .ok .frEnc := rfl
theorem test_decode_frDec : decodeCommand 0b00000000000000000000000000000010#32 = .ok .frDec := rfl
theorem test_decode_bcWr : decodeCommand 0b00000000000000000000000000000011#32 = .ok .bcWr := rfl
theorem test_decode_bcRd : decodeCommand 0b00000000000000000000000000000100#32 = .ok .bcRd := rfl
theorem test_decode_capacity : decodeCommand 0b00000000000000000000000000010000#32 = .ok .capacity := rfl
theorem test_decode_encode : decodeCommand 0b00000000000000000000000000010001#32 = .ok .encode := rfl
theorem test_decode_decode : decodeCommand 0b00000000000000000000000000010010#32 = .ok .decode := rfl

/-- V-IL-7, V-IL-5. -/
theorem test_decode_illegal :
    decodeCommand 0x80000011#32 = .error .reservedBitsSet ∧ decodeCommand 0x000000FF#32 = .error .unassignedOpcode :=
  ⟨rfl, rfl⟩

/-! ### The commands -/

/-- R145's example: STATUS 0x40, then NOP. -/
theorem test_nop_clears_err :
    State.status { testState with err := .capacityExceeded } = 0x40#32 ∧
    (after (exec .nop { testState with err := .capacityExceeded, pend := some 0#32 })).map State.status = some 0#32 := by
  decide

/-- V-FE-2, V-FE-4: the frame of 0x41, and B[56], B[57] past it. -/
theorem test_frEnc_frame41 :
    ∃ t, exec .frEnc { testState with payload := [(0, 0x41#8)], len := 1#16, bitbuf := [(56, true), (57, false)] } = .next t ∧
      t.bits 58 = frame41 ++ bitList [1, 0] ∧ t.bitlen = 56#32 := by
  refine ⟨_, exec_frEnc _, ?_, by decide⟩
  rw [State.finish_bits, State.setBitlen_bits, bits_writeBits_eq]
  decide +kernel

/-- V-FD-1: LEN 9 becomes 1 and P[0] = 0x41. -/
theorem test_frDec_frame41 :
    ∃ t, exec .frDec (withFrame41 56) = .next t ∧ t.err = .success ∧ t.len = 1#16 ∧ t.payloadByte 0 = 0x41#8 := by
  have h : parse (withFrame41 56).markerBits ((withFrame41 56).bits 56) = .ok (1#16, [0x41#8]) := by decide +kernel
  refine ⟨_, exec_frDec _, ?_⟩
  rw [show (withFrame41 56).bitlen.toNat = 56 from rfl, h, acceptParsed_finish]
  refine ⟨rfl, rfl, ?_⟩
  rw [State.finish_payloadByte, State.setLen_payloadByte, payloadByte_writePayload]
  rfl

/-- V-FD-2, V-FD-3: 55 and 47 bits. -/
theorem test_frDec_short :
    (after (exec .frDec (withFrame41 55))).map (fun t => (t.status, t.len)) = some (0x30#32, 9#16) ∧
    (after (exec .frDec (withFrame41 47))).map (fun t => (t.status, t.len)) = some (0x20#32, 9#16) := by
  decide +kernel

/-- V-BW-1. -/
theorem test_bcWr_writes :
    ∃ t, exec .bcWr (bw1 4) = .next t ∧ t.carrierBytes 4 = [0xFE#8, 0x01#8, 0x7F#8, 0x81#8] ∧ t.status = 0#32 := by
  refine ⟨_, exec_bcWr_fits _ (by decide), ?_, by decide⟩
  rw [State.finish_carrierBytes, carrierBytes_putLsbs]
  decide +kernel

/-- V-BW-2. -/
theorem test_bcWr_refuses :
    (after (exec .bcWr (bw1 3))).map (fun t => (t.status, t.carrierBytes 4)) =
      some (0x60#32, [0xFF#8, 0x00#8, 0x7E#8, 0x81#8]) := by
  decide +kernel

/-- V-BR-1, V-BR-4: five LSBs, and three with B[3] kept. -/
theorem test_bcRd_reads :
    ∃ t, exec .bcRd { testState with carrier := listed [0x00#8, 0x01#8, 0xFE#8, 0xFF#8, 0x80#8], clen := 5#32 } = .next t ∧
      t.bits 5 = bitList [0, 1, 0, 1, 0] ∧ t.bitlen = 5#32 := by
  refine ⟨_, exec_bcRd _, ?_, by decide⟩
  rw [State.finish_bits, State.setBitlen_bits, bits_writeBits_eq]
  decide +kernel

theorem test_bcRd_keeps_rest :
    ∃ t, exec .bcRd { testState with carrier := listed [0x00#8, 0x01#8, 0xFE#8, 0xFF#8], clen := 3#32, bitbuf := [(3, true)] } =
      .next t ∧ t.bits 4 = bitList [0, 1, 0, 1] ∧ t.bitlen = 3#32 := by
  refine ⟨_, exec_bcRd _, ?_, by decide⟩
  rw [State.finish_bits, State.setBitlen_bits, bits_writeBits_eq]
  decide +kernel

/-- 95_test_vectors.md 2.6: CLEN 0, 47, 55, 56, 1000, 524327, 2^31. -/
theorem test_capacity_table :
    [0, 47, 55, 56, 1000, 524327, 2147483648].map
        (fun c => (after (exec .capacity { testState with clen := BitVec.ofNat 32 c })).map State.cap) =
      [some 0xFFFFFFFA#32, some 0xFFFFFFFF#32, some 0#32, some 1#32, some 0x77#32, some 0xFFFE#32,
        some 0x0FFFFFFA#32] := by
  decide +kernel

/-- V-EN-5: the carrier of P1. -/
theorem test_encode_p1 :
    ∃ t, exec .encode (beforeP1 64) = .next t ∧ t.carrierBytes 64 = p1Carrier ∧ t.status = 0#32 := by
  refine ⟨_, exec_encode_fits _ (by decide), ?_, by decide⟩
  rw [State.finish_carrierBytes, carrierBytes_putLsbs]
  decide +kernel

/-- V-EN-4: 64 > 63, CARRIER unchanged. -/
theorem test_encode_refuses :
    (after (exec .encode (beforeP1 63))).map (fun t => (t.status, t.carrier)) =
      some (0x40#32, listed (List.replicate 64 0x10#8)) := by
  decide +kernel

/-- V-DEC-1. -/
theorem test_decode_p1 :
    ∃ t, exec .decode (withP1 64) = .next t ∧ t.err = .success ∧ t.len = 2#16 ∧ t.payloadBytes 2 = [0x48#8, 0x69#8] := by
  have h : parse (withP1 64).markerBits ((withP1 64).carrierLsbs 64) = .ok (2#16, [0x48#8, 0x69#8]) := by decide +kernel
  refine ⟨_, exec_decode _, ?_⟩
  rw [show (withP1 64).clen.toNat = 64 from rfl, h, acceptParsed_finish]
  refine ⟨rfl, rfl, ?_⟩
  rw [State.finish_payloadBytes, State.setLen_payloadBytes, payloadBytes_writePayload_eq]
  rfl

/-- V-DEC-2, V-DEC-4, V-DEC-5. -/
theorem test_decode_errors :
    (after (exec .decode (withP1 63))).map State.status = some 0x30#32 ∧
    (after (exec .decode { testState with carrier := listed (List.replicate 48 0#8), clen := 48#32 })).map State.status =
      some 0x10#32 ∧
    (after (exec .decode { testState with carrier := listed (List.replicate 40 0#8), clen := 40#32 })).map State.status =
      some 0x20#32 := by
  decide +kernel

/-! ### Steps: the Engine, the host, reset -/

/-- V-IL-6: an illegal word completes with STATUS 0x50. -/
theorem test_illegal_word : (after (step (testState.withFetchWord 32 0x105))).map State.status = some 0x50#32 := by
  decide

/-- The first command after reset runs (log entry 10): NOP and DECODE (V-DEC-6). -/
theorem test_first_command_after_reset :
    (after (step (State.reset.withFetchWord 32 0x00))).map State.status = some 0x00#32 ∧
    (after (step (State.reset.withFetchWord 32 0x12))).map State.status = some 0x20#32 := by
  decide

/-- V-H-1, V-H-2, V-H-7, V-H-8, V-H-10, V-H-11, V-H-14: one access each, BUSY = 0. -/
theorem test_host_reads_and_refusals :
    [Access.read32 0x00#32, .write32 0x00#32 0#32, .read32 0x02#32, .read8 0x08#32, .read32 0x24#32,
      .read8 0x0001FFFF#32, .read32 0x04#32].map (fun x => (after (step (withTurns testState [.access x]))).map State.responses) =
      [some [.data32 0xA5C30F96#32], some [.buserr], some [.buserr], some [.buserr], some [.buserr], some [.buserr],
        some [.data32 0#32]] := by
  decide

/-- V-H-3, V-H-4: LEN refuses 0x10000 and takes 0xFFFF. -/
theorem test_len_write :
    (after (step (withTurns testState [.access (.write32 0x0C#32 0x10000#32)]))).map (fun t => (t.len, t.responses)) =
      some (0#16, [.buserr]) ∧
    (after (step (withTurns testState [.access (.write32 0x0C#32 0xFFFF#32)]))).map (fun t => (t.len, t.responses)) =
      some (65535#16, [.written]) := by
  decide

/-- V-H-5, V-H-6: CLEN refuses CARRIER_MAX + 1, BITLEN refuses BITBUF_DEPTH + 1. -/
theorem test_clen_bitlen_refuse :
    (after (step (withTurns testState [.access (.write32 0x10#32 1001#32)]))).map State.responses = some [.buserr] ∧
    (after (step (withTurns testState [.access (.write32 0x14#32 524329#32)]))).map State.responses = some [.buserr] := by
  decide

/-- V-H-12, V-H-13: the BITBUF view takes bit 0 and reads 0x00 or 0x01. -/
theorem test_bitbuf_view :
    (testState.write8 0x01000005#32 0xFF#8).bit 5 = true ∧ (testState.write8 0x01000005#32 0xFE#8).bit 5 = false ∧
    (State.read8 { testState with bitbuf := [(5, true)] } 0x01000005#32).responses = [.data8 0x01#8] := by
  refine ⟨?_, ?_, by decide⟩
  · exact (bit_setBit testState 5 true 5).trans (if_pos rfl)
  · exact (bit_setBit testState 5 false 5).trans (if_pos rfl)

/-- V-H-16 to V-H-19: the busy window. -/
theorem test_busy_window :
    [Access.read32 0x08#32, .write32 0x04#32 0#32, .read8 0x80000000#32, .read32 0x10#32].map
        (fun x => (after (step (withTurns (testState.issue 0x10#32) [.access x]))).map State.responses) =
      [some [.data32 1#32], some [.buserr], some [.buserr], some [.data32 0#32]] := by
  decide

/-- P4, steps 2 to 4: both schedules of the Engine; LEN stays 0 while busy, becomes 5 after. -/
theorem test_p4_both_schedules :
    (after (Sys2Proof.core.run 3 (withTurns testState
      [.access (.write32 0x04#32 0x10#32), .access (.write32 0x0C#32 5#32), .engine]))).map State.len = some 0#16 ∧
    (after (Sys2Proof.core.run 3 (withTurns testState
      [.access (.write32 0x04#32 0x10#32), .engine, .access (.write32 0x0C#32 5#32)]))).map State.len = some 5#16 := by
  decide

/-- V-R-2: a reset with ENCODE in flight. -/
theorem test_reset_abandons :
    (after (step (withTurns ((beforeP1 64).issue 0x11#32) [.reset]))).map
        (fun t => (t.status, t.len, t.clen, t.cap, t.pend, t.marker)) =
      some (0#32, 0#16, 0#32, 0xFFFFFFFA#32, none, 0xA5C30F96#32) := by
  decide

/-! ### Witnesses: a state and operands that meet the hypotheses of each statement (boundary values where there are any) -/

/-- `testState` with the largest parameters 00_scope.md R4 allows. -/
def largeState : State := { testState with carrierMax := 0x80000000#32, bitbufDepth := 0x01000000#32 }

/-- `testState` with the smallest parameters 00_scope.md R4 allows. -/
def smallState : State := { testState with carrierMax := 1#32, bitbufDepth := 524328#32 }

/-- A stream of the marker and this length field, the payload to come. -/
def headerOf (n : BitVec 16) : List Bool := markerList ++ bitsMsbFirst n

/-- BITBUF holds the marker and the length field `n`; BITLEN is `L`. -/
def withHeader (n : BitVec 16) (L : Nat) : State :=
  { testState with bitbuf := listed (headerOf n), bitlen := BitVec.ofNat 32 L }

/-- The carrier LSBs hold the marker and the length field `n`; CLEN is `L`. -/
def withCarrierHeader (n : BitVec 16) (L : Nat) : State :=
  { largeState with
    carrier := listed ((headerOf n).map fun b => if b then 1#8 else 0#8), clen := BitVec.ofNat 32 L }

/-- The marker at the start of 48 zero bits differs at element 0. -/
def noMarker (L : Nat) : State :=
  { testState with
    bitbuf := listed (List.replicate 48 false), bitlen := BitVec.ofNat 32 L
    carrier := listed (List.replicate 48 0#8), clen := BitVec.ofNat 32 L }

/-- The host's access `x` comes next in `s`. -/
theorem hostNext_withTurns (s : State) (x : Access) (l : List Turn) :
    HostNext (withTurns s (.access x :: l)) x (withTurns s l) := ⟨rfl, rfl⟩

/-- The Engine comes next in `s`, by its turn or by an empty agenda. -/
theorem engineNext_withTurns (s : State) (l : List Turn) :
    EngineNext (withTurns s (.engine :: l)) (withTurns s l) ∧ EngineNext (withTurns s []) (withTurns s []) :=
  ⟨.inr ⟨rfl, rfl⟩, .inl ⟨rfl, rfl⟩⟩

/-- Both ways for the Engine's turn to come, with ENCODE in flight. -/
theorem witness_StepRunsDecodedCommand :
    EngineNext (testState.withFetchWord 32 0x11) (testState.issue 0x11#32) ∧
    (testState.withFetchWord 32 0x11).pend = some 0x11#32 ∧
    EngineNext (testState.issue 0x11#32) (testState.issue 0x11#32) ∧
    (testState.issue 0x11#32).pend = some 0x11#32 ∧ decodeCommand 0x11#32 = .ok .encode :=
  ⟨.inr ⟨rfl, rfl⟩, rfl, .inl ⟨rfl, rfl⟩, rfl, rfl⟩

theorem witness_DecodeEncodeAgree : Instr.decode.wf = true ∧ decodeCommand 0x12#32 = .ok .decode := ⟨rfl, rfl⟩

/-- The first and the last of each range of illegal words, at issue and at completion. -/
theorem witness_IllegalWord :
    (∀ w ∈ [0x05#32, 0x0F#32, 0x13#32, 0xFF#32, 0x100#32, 0xFFFFFFFF#32], IllegalWord w) ∧
    HostNext (withTurns testState [.access (.write32 0x04#32 0x105#32)]) (.write32 0x04#32 0x105#32) testState ∧
    testState.pend = none ∧
    EngineNext (testState.issue 0xFF#32) (testState.issue 0xFF#32) ∧ (testState.issue 0xFF#32).pend = some 0xFF#32 :=
  ⟨by simp [IllegalWord], ⟨rfl, rfl⟩, rfl, .inl ⟨rfl, rfl⟩, rfl⟩

/-- The empty payload, one byte, and the longest payload. -/
theorem witness_FrameLayout :
    ([] : List Byte).length = (0#16).toNat ∧ [0x41#8].length = (1#16).toNat ∧
    (List.replicate 65535 0x41#8).length = (65535#16).toNat :=
  ⟨rfl, rfl, List.length_replicate⟩

/-- 47 bits; 48 bits without the marker; a header of length 1 with 55 bits; and the whole frame of 56. -/
theorem witness_ParseAnswers :
    (List.replicate 47 false).length < 48 ∧
    (48 ≤ (List.replicate 48 false).length ∧ ¬ MarkerAt (fun k => (List.replicate 48 false)[k]?.getD false) 0xA5C30F96#32) ∧
    (48 ≤ (frame41.take 55).length ∧ MarkerAt (fun k => (frame41.take 55)[k]?.getD false) 0xA5C30F96#32 ∧
      LengthAt (fun k => (frame41.take 55)[k]?.getD false) 1#16 ∧ (frame41.take 55).length < 48 + 8 * (1#16).toNat) ∧
    (MarkerAt (fun k => frame41[k]?.getD false) 0xA5C30F96#32 ∧ LengthAt (fun k => frame41[k]?.getD false) 1#16 ∧
      48 + 8 * (1#16).toNat ≤ frame41.length) ∧
    (MarkerAt (fun k => frame0[k]?.getD false) 0xA5C30F96#32 ∧ LengthAt (fun k => frame0[k]?.getD false) 0#16 ∧
      48 + 8 * (0#16).toNat ≤ frame0.length) := by
  unfold MarkerAt LengthAt
  decide +kernel

/-- One list for each of the laws (a) to (d). -/
theorem witness_FrameParseLaws :
    [0x41#8].length = (1#16).toNat ∧
    (48 ≤ (List.replicate 48 false).length ∧ (List.replicate 48 false).take 32 ≠ bitsMsbFirst 0xA5C30F96#32) ∧
    (List.replicate 47 false).length < 48 ∧
    parse (bitsMsbFirst 0xA5C30F96#32) frame41 = .ok (1#16, [0x41#8]) := by
  decide +kernel

/-- The smallest and the largest parameters: FrEncWritesTheFrame, BitChannelLaws (c), PathsAgree (b), MemoryWindows. -/
theorem witness_paramsOk : smallState.paramsOk ∧ testState.paramsOk ∧ largeState.paramsOk := by
  unfold State.paramsOk; decide

/-- A frame of no byte in 48 bits, of one in 56, of 65535 in BITBUF_DEPTH bits. -/
theorem witness_FrDec_succeeds :
    ∀ c ∈ [((0#16 : BitVec 16), 48), (1#16, 56), (65535#16, 524328)],
      MarkerAt (withHeader c.1 c.2).bit (withHeader c.1 c.2).marker ∧ LengthAt (withHeader c.1 c.2).bit c.1 ∧
      48 + 8 * c.1.toNat ≤ (withHeader c.1 c.2).bitlen.toNat := by
  unfold MarkerAt LengthAt
  decide +kernel

/-- 0 and 47 bits; 48 without the marker; 48 and 524327 bits of a longer frame. -/
theorem witness_FrDec_fails :
    (withHeader 0#16 0).bitlen.toNat < 48 ∧ (withHeader 0#16 47).bitlen.toNat < 48 ∧
    (48 ≤ (noMarker 48).bitlen.toNat ∧ ¬ MarkerAt (noMarker 48).bit (noMarker 48).marker) ∧
    ∀ c ∈ [((1#16 : BitVec 16), 48), (1#16, 55), (65535#16, 524327)],
      48 ≤ (withHeader c.1 c.2).bitlen.toNat ∧ MarkerAt (withHeader c.1 c.2).bit (withHeader c.1 c.2).marker ∧
      LengthAt (withHeader c.1 c.2).bit c.1 ∧ (withHeader c.1 c.2).bitlen.toNat < 48 + 8 * c.1.toNat := by
  unfold MarkerAt LengthAt
  decide +kernel

/-- BITLEN = CLEN = 4 and BITLEN = 0; BITLEN = CLEN + 1. -/
theorem witness_BcWr :
    (bw1 4).bitlen.toNat ≤ (bw1 4).clen.toNat ∧ testState.bitlen.toNat ≤ testState.clen.toNat ∧
    (bw1 3).clen.toNat < (bw1 3).bitlen.toNat := by
  decide

/-- Write then read on V-BW-1, with nothing changed in between. -/
theorem witness_BitChannelLaws :
    (bw1 4).bitlen.toNat ≤ (bw1 4).clen.toNat ∧
    ∃ t, exec .bcWr (bw1 4) = .next t ∧ t.clen = t.clen ∧ t.bitbufDepth = t.bitbufDepth ∧
      ∀ i, i < t.clen.toNat → t.carrierByte i = t.carrierByte i :=
  ⟨by decide, _, exec_bcWr_fits _ (by decide), rfl, rfl, fun _ _ => rfl⟩

/-- The host writes CLEN after a CAPACITY; the largest CLEN of all. -/
theorem witness_CapacityWritesCap :
    HostNext (withTurns testState [.access (.write32 0x10#32 56#32)]) (.write32 0x10#32 56#32) testState ∧
    step (withTurns testState [.access (.write32 0x10#32 56#32)]) =
      .next { testState with clen := 56#32, responses := [.written] } ∧
    2147483648 ≤ 2 ^ 31 :=
  ⟨⟨rfl, rfl⟩, rfl, by decide⟩

/-- P1: 64 carrier bytes are just enough for two payload bytes, 63 are not. -/
theorem witness_EncodeWritesTheFrame :
    48 + 8 * (beforeP1 64).len.toNat ≤ (beforeP1 64).clen.toNat ∧
    (beforeP1 63).clen.toNat < 48 + 8 * (beforeP1 63).len.toNat := by
  decide

/-- As for FR_DEC, in the carrier's LSBs; the carrier of P1 is another. -/
theorem witness_Decode_succeeds :
    ∀ c ∈ [((0#16 : BitVec 16), 48), (1#16, 56), (65535#16, 2147483648)],
      MarkerAt (lsbs (withCarrierHeader c.1 c.2)) (withCarrierHeader c.1 c.2).marker ∧
      LengthAt (lsbs (withCarrierHeader c.1 c.2)) c.1 ∧
      48 + 8 * c.1.toNat ≤ (withCarrierHeader c.1 c.2).clen.toNat := by
  unfold MarkerAt LengthAt
  decide +kernel

/-- As for FR_DEC, in the carrier's LSBs. -/
theorem witness_Decode_fails :
    (withCarrierHeader 0#16 0).clen.toNat < 48 ∧ (withCarrierHeader 0#16 47).clen.toNat < 48 ∧
    (48 ≤ (noMarker 48).clen.toNat ∧ ¬ MarkerAt (lsbs (noMarker 48)) (noMarker 48).marker) ∧
    ∀ c ∈ [((1#16 : BitVec 16), 48), (1#16, 55), (65535#16, 524327)],
      48 ≤ (withCarrierHeader c.1 c.2).clen.toNat ∧
      MarkerAt (lsbs (withCarrierHeader c.1 c.2)) (withCarrierHeader c.1 c.2).marker ∧
      LengthAt (lsbs (withCarrierHeader c.1 c.2)) c.1 ∧
      (withCarrierHeader c.1 c.2).clen.toNat < 48 + 8 * c.1.toNat := by
  unfold MarkerAt LengthAt
  decide +kernel

theorem witness_PipelineIgnoresBitbuf :
    Instr.encode ∈ [Instr.encode, .decode, .capacity, .nop] ∧ Instr.nop ∈ [Instr.encode, .decode, .capacity, .nop] := by
  decide

/-- P1, decoded on the very state ENCODE leaves. -/
theorem witness_EncodeDecodeRoundTrip :
    ((beforeP1 64).len.toNat : Int) ≤ available (beforeP1 64).clen.toNat ∧
    ∃ t, exec .encode (beforeP1 64) = .next t ∧ t.marker = t.marker ∧ t.clen = t.clen ∧
      ∀ i, i < t.clen.toNat → t.carrierByte i = t.carrierByte i :=
  ⟨by decide, _, exec_encode_fits _ (by decide), rfl, rfl, fun _ _ => rfl⟩

/-- a = 0 with LEN 0 and 1; a = 65534 with LEN 65534 and 65535; a = 65535; a = -1. -/
theorem witness_LengthBoundary :
    (∀ c ∈ [((48 : Nat), (0 : Nat)), (524320, 65534)], 0 ≤ available c.1 ∧ available c.1 ≤ 65534 ∧ (c.2 : Int) = available c.1 ∧
      c.1 = ({ largeState with clen := BitVec.ofNat 32 c.1, len := BitVec.ofNat 16 c.2 } : State).clen.toNat ∧
      c.2 = ({ largeState with clen := BitVec.ofNat 32 c.1, len := BitVec.ofNat 16 c.2 } : State).len.toNat) ∧
    (∀ c ∈ [((55 : Nat), (1 : Nat)), (524327, 65535)], 0 ≤ available c.1 ∧ available c.1 ≤ 65534 ∧ (c.2 : Int) = available c.1 + 1 ∧
      c.1 = ({ largeState with clen := BitVec.ofNat 32 c.1, len := BitVec.ofNat 16 c.2 } : State).clen.toNat ∧
      c.2 = ({ largeState with clen := BitVec.ofNat 32 c.1, len := BitVec.ofNat 16 c.2 } : State).len.toNat) ∧
    65535 ≤ available ({ largeState with clen := 524328#32 } : State).clen.toNat ∧
    available ({ largeState with clen := 47#32 } : State).clen.toNat < 0 := by
  decide +kernel

/-- P1 with room and without. -/
theorem witness_PathsAgree :
    48 + 8 * (beforeP1 64).len.toNat ≤ (beforeP1 64).clen.toNat ∧
    (beforeP1 63).clen.toNat < 48 + 8 * (beforeP1 63).len.toNat ∧ testState.paramsOk :=
  ⟨by decide, by decide, witness_paramsOk.2.1⟩

/-- A command that fails: ErrorCausesExact, FailedCommandChangesOnlyStatus, BcWrEncodeFrame. -/
theorem witness_failing_commands :
    exec .bcWr (bw1 3) = .next ((bw1 3).raise .contractViolation) ∧
    ((bw1 3).raise .contractViolation).err ≠ .success ∧
    exec .encode (beforeP1 63) = .next ((beforeP1 63).raise .capacityExceeded) ∧
    ((beforeP1 63).raise .capacityExceeded).err ≠ .success ∧
    exec .frDec testState = .next (testState.raise .malformedStream) ∧
    (testState.raise .malformedStream).err ≠ .success ∧
    exec .decode testState = .next (testState.raise .malformedStream) := by
  refine ⟨exec_bcWr_refused _ (by decide), by decide, exec_encode_refused _ (by decide), by decide, rfl, by decide, rfl⟩

/-- A word in flight, legal or not, and the step that completes it. -/
theorem witness_ErrorCausesExact :
    EngineNext (testState.issue 0x13#32) (testState.issue 0x13#32) ∧ (testState.issue 0x13#32).pend = some 0x13#32 ∧
    step (testState.issue 0x13#32) = .next (testState.raise .illegalCommand) ∧
    EngineNext (testState.issue 0x12#32) (testState.issue 0x12#32) ∧ (testState.issue 0x12#32).pend = some 0x12#32 ∧
    step (testState.issue 0x12#32) = .next (testState.raise .malformedStream) :=
  ⟨.inl ⟨rfl, rfl⟩, rfl, rfl, .inl ⟨rfl, rfl⟩, rfl, rfl⟩

/-- An idle step, an issue and a reset, each with ERR = 4 before. -/
theorem witness_ErrKeptUntilIssueOrReset :
    ∀ l ∈ [[], [Turn.access (.write32 0x04#32 0#32)], [.reset]],
      (withTurns { testState with err := .capacityExceeded } l).pend = none ∧
      after (step (withTurns { testState with err := .capacityExceeded } l)) ≠ none := by
  decide

/-- Each of the eight commands that succeeds: the frames, EngineKeepsCarrierUpperBits. -/
theorem witness_frames :
    exec .nop testState = .next testState.finish ∧
    exec .capacity testState = .next (testState.setCap 0xFFFFFFFA#32).finish ∧
    (∃ t, exec .frEnc testState = .next t) ∧ (∃ t, exec .bcRd testState = .next t) ∧
    (∃ t, exec .frDec (withFrame41 56) = .next t) ∧ (∃ t, exec .decode (withP1 64) = .next t) ∧
    exec .bcWr (bw1 4) = .next ((bw1 4).putLsbs ((bw1 4).bits 4)).finish ∧
    (∃ t, exec .encode (beforeP1 64) = .next t) :=
  ⟨rfl, rfl, ⟨_, rfl⟩, ⟨_, rfl⟩, ⟨_, exec_frDec _⟩, ⟨_, exec_decode _⟩, exec_bcWr_fits _ (by decide),
    ⟨_, exec_encode_fits _ (by decide)⟩⟩

/-- Both outcomes of the parse in FrDecDecodeFrame. -/
theorem witness_FrDecDecodeFrame :
    parse (withFrame41 56).markerBits (decodedBits .frDec (withFrame41 56)) = .ok (1#16, [0x41#8]) ∧
    parse (withP1 64).markerBits (decodedBits .decode (withP1 64)) = .ok (2#16, [0x48#8, 0x69#8]) ∧
    parse (withFrame41 55).markerBits (decodedBits .frDec (withFrame41 55)) = .error .truncatedPayload ∧
    parse (withP1 63).markerBits (decodedBits .decode (withP1 63)) = .error .truncatedPayload := by
  decide +kernel

/-- Four carrier bytes that differ from V-BW-1's in bits 7:1, and a fifth past CLEN. -/
theorem witness_CommandsReadOnlyCarrierLsbs :
    ∀ k, k < (bw1 4).clen.toNat →
      lsbs { bw1 4 with carrier := listed [0x01#8, 0xFE#8, 0x00#8, 0xFF#8, 0x55#8] } k = lsbs (bw1 4) k := by
  decide

/-- An issue while idle, one while busy, and a read of CMD. -/
theorem witness_CmdPort :
    HostNext (withTurns testState [.access (.write32 0x04#32 0x11#32)]) (.write32 0x04#32 0x11#32) testState ∧
    testState.pend = none ∧
    HostNext (withTurns (testState.issue 0x10#32) [.access (.write32 0x04#32 0x11#32)]) (.write32 0x04#32 0x11#32)
      (testState.issue 0x10#32) ∧
    (testState.issue 0x10#32).pend ≠ none ∧
    HostNext (withTurns testState [.access (.read32 0x04#32)]) (.read32 0x04#32) testState :=
  ⟨⟨rfl, rfl⟩, rfl, ⟨rfl, rfl⟩, by decide, ⟨rfl, rfl⟩⟩

/-- An accepted access and one past the end of each region. -/
theorem witness_BusErrors :
    testState.paramsOk ∧
    (∀ x, HostNext (withTurns testState [.access x]) x testState) ∧
    (∀ x ∈ [Access.read32 0x20#32, .write32 0x0C#32 65535#32, .write32 0x10#32 1000#32, .write32 0x14#32 524328#32,
      .read8 0x00010000#32, .read8 0x0001FFFE#32, .write8 0x01080027#32 1#8, .read8 0x800003E7#32], Accepted testState x) ∧
    (∀ x ∈ [Access.read32 0x24#32, .read32 0x02#32, .write32 0x0C#32 65536#32, .write32 0x10#32 1001#32,
      .write32 0x14#32 524329#32, .read8 0x0001FFFF#32, .write8 0x01080028#32 1#8, .read8 0x800003E8#32, .read8 0x08#32,
      .read32 0x80000000#32], ¬ Accepted testState x) := by
  refine ⟨witness_paramsOk.2.1, fun x => ⟨rfl, rfl⟩, ?_, ?_⟩ <;> simp [Accepted, testState, State.reset]

/-- A command in flight, and any access of the host's or a reset next. -/
theorem witness_BusyWindowResponses :
    (testState.issue 0x10#32).pend ≠ none ∧ (testState.issue 0x10#32).err = .success ∧
    (∀ x, HostNext (withTurns (testState.issue 0x10#32) [.access x]) x (testState.issue 0x10#32)) ∧
    ¬ ((0x24#32 : Word).toNat < 0x24 ∧ (0x24#32 : Word).toNat % 4 = 0) ∧
    ¬ ((0x02#32 : Word).toNat < 0x24 ∧ (0x02#32 : Word).toNat % 4 = 0) ∧
    (withTurns (testState.issue 0x10#32) [.reset]).agenda = .reset :: [] :=
  ⟨by decide, rfl, fun _ => ⟨rfl, rfl⟩, by decide, by decide, rfl⟩

/-- Each register's address: RegisterReads, ReadsHaveNoSideEffect. -/
theorem witness_RegisterReads :
    testState.pend = none ∧ (∀ a, HostNext (withTurns testState [.access (.read32 a)]) (.read32 a) testState) ∧
    (∀ a, HostNext (withTurns testState [.access (.read8 a)]) (.read8 a) testState) :=
  ⟨rfl, fun _ => ⟨rfl, rfl⟩, fun _ => ⟨rfl, rfl⟩⟩

/-- The largest legal and the smallest illegal value of each register. -/
theorem witness_HostWrites :
    testState.pend = none ∧
    (∀ a v, HostNext (withTurns testState [.access (.write32 a v)]) (.write32 a v) testState) ∧
    (65535#32).toNat ≤ 65535 ∧ 65535 < (65536#32).toNat ∧
    (1000#32).toNat ≤ testState.carrierMax.toNat ∧ testState.carrierMax.toNat < (1001#32).toNat ∧
    (524328#32).toNat ≤ testState.bitbufDepth.toNat ∧ testState.bitbufDepth.toNat < (524329#32).toNat :=
  ⟨rfl, fun _ _ => ⟨rfl, rfl⟩, by decide⟩

/-- The last element of each window, in the largest instance. -/
theorem witness_MemoryWindows :
    largeState.paramsOk ∧ largeState.pend = none ∧ 65534 < 65535 ∧ 16777215 < largeState.bitbufDepth.toNat ∧
    2147483647 < largeState.carrierMax.toNat ∧
    (∀ a, HostNext (withTurns largeState [.access (.read8 a)]) (.read8 a) largeState) ∧
    (∀ a v, HostNext (withTurns largeState [.access (.write8 a v)]) (.write8 a v) largeState) :=
  ⟨witness_paramsOk.2.2, rfl, by decide, by decide, by decide, fun _ => ⟨rfl, rfl⟩, fun _ _ => ⟨rfl, rfl⟩⟩

/-- A step of each kind, and a write and a read of MARKER. -/
theorem witness_ConstantRegisters :
    step testState = .next testState ∧ step (withTurns testState [.reset]) = .next testState.resetBlock ∧
    HostNext (withTurns testState [.access (.write32 0x00#32 0#32)]) (.write32 0x00#32 0#32) testState ∧
    (∀ a, HostNext (withTurns testState [.access (.read32 a)]) (.read32 a) testState) :=
  ⟨rfl, rfl, ⟨rfl, rfl⟩, fun _ => ⟨rfl, rfl⟩⟩

/-- CAPACITY completes. -/
theorem witness_CapWrittenOnly :
    ∃ t, step ({ testState with clen := 56#32 }.issue 0x10#32) = .next t ∧ t.cap = 1#32 :=
  ⟨_, rfl, by decide⟩

/-- At the end with no turn left and with turns of the Engine left. -/
theorem witness_EndOfRunIsFinal : testState.atEnd ∧ (withTurns testState [.engine, .engine]).atEnd := ⟨⟨rfl, rfl⟩, rfl, rfl⟩

/-- R199: the run is not at its end with an access to come, with a reset to come, or with a command in flight. -/
theorem test_not_at_end :
    ¬ (withTurns testState [.engine, .access (.read32 0x08#32)]).atEnd ∧ ¬ (withTurns testState [.reset]).atEnd ∧
    ¬ (testState.issue 0x00#32).atEnd := by
  refine ⟨fun h => ?_, fun h => ?_, fun h => ?_⟩
  · exact absurd h.1 (by decide)
  · exact absurd h.1 (by decide)
  · exact absurd h.2 (by decide)

/-- ENCODE in flight, two accesses, the Engine, and one access more. -/
theorem witness_OperandsAtCompletion :
    ((beforeP1 64).issue 0x11#32).pend = some 0x11#32 ∧ decodeCommand 0x11#32 = .ok .encode ∧
    (withTurns ((beforeP1 64).issue 0x11#32)
        [.access (.write32 0x0C#32 5#32), .access (.read32 0x18#32), .engine, .access (.read32 0x08#32)]).agenda =
      List.map Turn.access [.write32 0x0C#32 5#32, .read32 0x18#32] ++ .engine :: [.access (.read32 0x08#32)] :=
  ⟨rfl, rfl, rfl⟩

theorem witness_IdleBlock : EngineNext testState testState ∧ testState.pend = none := ⟨.inl ⟨rfl, rfl⟩, rfl⟩

theorem witness_ResetTurn : (withTurns ((beforeP1 64).issue 0x11#32) [.reset]).agenda = .reset :: [] := rfl

/-- The invariant holds in a state with registers in the middle of their ranges, and each kind of step is possible there. -/
theorem witness_StepKeepsInvariant :
    State.Inv { testState with clen := 1000#32, bitlen := 524328#32, len := 65535#16, err := .truncatedPayload } ∧
    (∀ l ∈ [[], [Turn.reset], [.access (.write32 0x10#32 64#32)]],
      after (step (withTurns { testState with clen := 1000#32, bitlen := 524328#32, len := 65535#16 } l)) ≠ none) :=
  ⟨⟨witness_paramsOk.2.1, by decide, by decide, by decide, ⟨rfl, rfl, rfl⟩, ⟨rfl, rfl, rfl⟩⟩, by decide⟩

/-- An agenda that issues CAPACITY and lets it complete. -/
theorem witness_ReachableStates :
    ∃ t, Sys2Proof.core.run 2 { State.reset with agenda := [.access (.write32 0x04#32 0x10#32), .engine] } = .next t :=
  ⟨_, rfl⟩

/-- A memory of two bytes over a memory that reads 0, and one of two bits. -/
theorem witness_CanonicalMemoriesEqual :
    Memory.wf (fun _ => false) [(0, true), (5, true)] = true ∧
    (∀ a, Memory.read (fun _ => false) [(0, true), (5, true)] a = Memory.read (fun _ => false) [(0, true), (5, true)] a) ∧
    Memory.wf (fun _ => 0#8) [(0, 0x48#8), (7, 0x69#8)] = true ∧
    ∀ a, Memory.read (fun _ => 0#8) [(0, 0x48#8), (7, 0x69#8)] a = Memory.read (fun _ => 0#8) [(0, 0x48#8), (7, 0x69#8)] a :=
  ⟨by decide, fun _ => rfl, by decide, fun _ => rfl⟩

end Sys2Proof.Tests
end

/-!
Proofs of the statements about the architectural state (10_state.md). The first part holds what they share with the
other families: the decoder's inverse, the turns as `HostNext` and `EngineNext` name them, the registers as the host sees
them, and what a command can do.
-/

namespace Sys2Proof

/-! ### Decoding determines the word -/

theorem opcodeOf_of_decodeOpcode {op : BitVec 8} {i : Instr} (h : decodeOpcode op = .ok i) : opcodeOf i = op := by
  unfold decodeOpcode at h
  repeat' split at h
  all_goals cases h
  all_goals (symm; assumption)

/-- Every word is its reserved field above its opcode field (30_encoding.md R80). -/
theorem rsvField_append_opField (w : Word) : (rsvField w ++ opField w : Word) = w := by
  ext k hk
  simp only [rsvField, opField, BitVec.getElem_append, BitVec.getElem_extractLsb']
  split
  · simp [← BitVec.getLsbD_eq_getElem]
  · rw [← BitVec.getLsbD_eq_getElem]; congr 1; omega

/-- The word that decodes to a command is the command's own (30_encoding.md R81). -/
theorem encodeCommand_of_decodeCommand {w : Word} {i : Instr} (h : decodeCommand w = .ok i) : encodeCommand i = w := by
  unfold decodeCommand at h
  split at h
  · cases h
  · rename_i hr
    calc encodeCommand i = 0#24 ++ opField w := by rw [encodeCommand, opcodeOf_of_decodeOpcode h]
      _ = rsvField w ++ opField w := by rw [not_not.mp hr]
      _ = w := rsvField_append_opField w

end Sys2Proof

namespace Sys2Proof.Machine

open Claims

/-! ### The next turn -/

section Turns

variable {s u : State} {x : Access}

/-- With the host's access next, the step is that access on the state with the turn taken. -/
theorem step_of_hostNext (h : HostNext s x u) : step s = .next (u.hostAccess x) := by
  obtain ⟨ha, hu⟩ := h
  rw [step_of_access ha, ← hu]

theorem pend_of_hostNext (h : HostNext s x u) : u.pend = s.pend := by
  obtain ⟨-, hu⟩ := h
  rw [hu]

/-- With the Engine next, the step is the Engine's turn on the state with the turn taken. -/
theorem engineNext_dest (h : EngineNext s u) :
    ∃ rest, u = { s with agenda := rest } ∧ step s = engineTurn u := by
  rcases h with ⟨ha, rfl⟩ | ⟨ha, hu⟩
  · exact ⟨u.agenda, rfl, step_of_nil ha⟩
  · exact ⟨u.agenda, hu, by rw [step_of_engine ha, ← hu]⟩

end Turns

/-! ### The registers as the host sees them -/

section Registers

variable {s : State}

theorem busy_iff_pend : s.busy = true ↔ s.pend ≠ none := by
  rw [State.busy, Option.isSome_iff_ne_none]

theorem busy_eq_false_of_idle (h : s.pend = none) : s.busy = false := by
  rw [State.busy, h, Option.isSome_none]

/-- The word a register shows while no command is in flight (10_state.md R21 to R29). -/
def State.regValue (s : State) : Reg → Word
  | .marker => s.marker
  | .cmd => 0#32
  | .status => s.status
  | .len => s.len.setWidth 32
  | .clen => s.clen
  | .bitlen => s.bitlen
  | .cap => s.cap
  | .carrierMax => s.carrierMax
  | .bitbufDepth => s.bitbufDepth

theorem readReg_of_idle (r : Reg) (h : s.pend = none) : s.readReg r = s.respond (.data32 (s.regValue r)) := by
  have hv (v : Word) : s.respondVolatile v = s.respond (.data32 v) := by
    rw [State.respondVolatile, busy_eq_false_of_idle h, if_neg Bool.false_ne_true]
  cases r
  case len | bitlen | cap => exact hv _
  all_goals rfl

theorem hostAccess_read32_reg {a : Word} {r : Reg} (hr : regAt a.toNat = some r) :
    s.hostAccess (.read32 a) = s.readReg r := by
  rw [State.hostAccess, State.read32, (regionAt_register_iff s a r).mpr hr]

theorem hostAccess_write32_of_busy (a v : Word) (h : s.pend ≠ none) :
    s.hostAccess (.write32 a v) = s.respond .buserr := by
  rw [State.hostAccess, State.write32, if_pos (busy_iff_pend.mpr h)]

theorem hostAccess_write32_reg {a : Word} {r : Reg} (v : Word) (h : s.pend = none) (hr : regAt a.toNat = some r) :
    s.hostAccess (.write32 a v) = s.writeReg r v := by
  rw [State.hostAccess, State.write32, busy_eq_false_of_idle h, if_neg Bool.false_ne_true,
    (regionAt_register_iff s a r).mpr hr]

/-- A word fits in 16 bits exactly when LEN's reserved half of it is 0 (10_state.md R24). -/
theorem upper_half_eq_zero_iff (v : Word) : v.extractLsb' 16 16 = 0#16 ↔ v.toNat ≤ 65535 := by
  rw [BitVec.toNat_eq, BitVec.extractLsb'_toNat, Nat.shiftRight_eq_div_pow, BitVec.toNat_ofNat]
  have := v.isLt
  omega

theorem writeReg_len_legal {v : Word} (h : v.toNat ≤ 65535) :
    s.writeReg .len v = (s.setLen (v.setWidth 16)).respond .written := if_pos ((upper_half_eq_zero_iff v).mpr h)

theorem writeReg_len_illegal {v : Word} (h : 65535 < v.toNat) : s.writeReg .len v = s.respond .buserr :=
  if_neg fun hv => by have := (upper_half_eq_zero_iff v).mp hv; omega

/-- While a command is in flight an access adds one response, and at most a draw (10_state.md R32). -/
theorem hostAccess_of_busy (x : Access) (h : s.pend ≠ none) :
    ∃ r d, s.hostAccess x = { s with responses := r :: s.responses, draws := d } := by
  rcases hostAccess_cases s x with hr | ⟨hp, -⟩
  · exact hr
  · exact absurd hp h

/-! ### The steps that are an access to a register -/

variable {u : State} {a v : Word} {r : Reg}

theorem regValue_of_hostNext {x : Access} (h : HostNext s x u) (r : Reg) : u.regValue r = s.regValue r := by
  obtain ⟨-, hu⟩ := h
  rw [hu]
  cases r <;> rfl

theorem step_read32_reg (h : HostNext s (.read32 a) u) (hr : regAt a.toNat = some r) :
    step s = .next (u.readReg r) := by
  rw [step_of_hostNext h, hostAccess_read32_reg hr]

theorem step_read32_reg_of_idle (h : HostNext s (.read32 a) u) (hp : s.pend = none) (hr : regAt a.toNat = some r) :
    step s = .next (u.respond (.data32 (s.regValue r))) := by
  rw [step_read32_reg h hr, readReg_of_idle r ((pend_of_hostNext h).trans hp), regValue_of_hostNext h r]

theorem step_write32_of_busy (h : HostNext s (.write32 a v) u) (hp : s.pend ≠ none) :
    step s = .next (u.respond .buserr) := by
  rw [step_of_hostNext h, hostAccess_write32_of_busy a v (pend_of_hostNext h ▸ hp)]

theorem step_write32_reg (h : HostNext s (.write32 a v) u) (hp : s.pend = none) (hr : regAt a.toNat = some r) :
    step s = .next (u.writeReg r v) := by
  rw [step_of_hostNext h, hostAccess_write32_reg v ((pend_of_hostNext h).trans hp) hr]

/-- A register whose write is refused refuses it while a command is in flight too. -/
theorem step_write32_refused (h : HostNext s (.write32 a v) u) (hr : regAt a.toNat = some r)
    (hw : u.writeReg r v = u.respond .buserr) : step s = .next (u.respond .buserr) := by
  by_cases hp : s.pend = none
  · rw [step_write32_reg h hp hr, hw]
  · exact step_write32_of_busy h hp

end Registers

/-! ### What a command can do -/

/-- The ends of a command on `s`, with the bounds on what it writes: an error of any command, or one of the staged writes,
committed. -/
inductive Completes (s : State) : Instr → State → Prop where
  | raised (i : Instr) (e : ErrCode) : Completes s i (s.raise e)
  | nothing : Completes s .nop s.finish
  | bits (i : Instr) (bs : List Bool) (h : bs.length ≤ max Config.frameMaxBits s.bitbufDepth.toNat) :
      Completes s i ((s.writeBits bs).setBitlen (BitVec.ofNat 32 bs.length)).finish
  | payload (i : Instr) (n : BitVec 16) (q : List Byte) (h : q.length = n.toNat) :
      Completes s i ((s.writePayload q).setLen n).finish
  | lsbs (i : Instr) (bs : List Bool) (h : bs.length ≤ s.clen.toNat) : Completes s i (s.putLsbs bs).finish
  | cap : Completes s .capacity (s.setCap (BitVec.ofInt 32 (available s.clen.toNat))).finish

/-- The frame of LEN and PAYLOAD has 48 + 8 LEN bits (40_framer.md R101). -/
theorem length_frame_operands (s : State) :
    (frame s.markerBits s.len (s.payloadBytes s.len.toNat)).length = frameBits s.len.toNat := by
  rw [length_frame_state, length_payloadBytes]; rfl

theorem frameBits_le_frameMaxBits (n : BitVec 16) : frameBits n.toNat ≤ Config.frameMaxBits := by
  have := n.isLt
  simp only [frameBits, Config.headerBits, Config.frameMaxBits]
  omega

/-- A decode ends with the error of `parse`, or with the payload and its length stored. -/
theorem completes_acceptParsed (i : Instr) (s : State) (bs : List Bool) :
    Completes s i (s.acceptParsed (parse s.markerBits bs)) := by
  cases hp : parse s.markerBits bs with
  | error e => exact .raised i e
  | ok r =>
    obtain ⟨n, q⟩ := r
    obtain ⟨-, -, hlen, -⟩ := parse_ok hp
    exact .payload i n q hlen

/-- Every command ends in one of the ways of `Completes`. -/
theorem exec_completes {i : Instr} {s t : State} (h : exec i s = .next t) : Completes s i t := by
  cases i with
  | nop =>
    cases (exec_nop s).symm.trans h
    exact .nothing
  | frEnc =>
    have hlen := length_frame_operands s
    cases (exec_frEnc s).symm.trans h
    rw [← hlen]
    exact .bits _ _ (hlen ▸ (frameBits_le_frameMaxBits s.len).trans (le_max_left _ _))
  | frDec =>
    cases (exec_frDec s).symm.trans h
    exact completes_acceptParsed _ s _
  | bcWr =>
    rcases Nat.lt_or_ge s.clen.toNat s.bitlen.toNat with hc | hc
    · cases (exec_bcWr_refused s hc).symm.trans h
      exact .raised _ _
    · cases (exec_bcWr_fits s hc).symm.trans h
      exact .lsbs _ _ (by rwa [length_bits])
  | bcRd =>
    have hlen := length_carrierLsbs s s.bcRdCount
    have hcount : s.bcRdCount ≤ max Config.frameMaxBits s.bitbufDepth.toNat :=
      (min_le_right _ _).trans (le_max_right _ _)
    cases (exec_bcRd s).symm.trans h
    have hbits := Completes.bits (s := s) .bcRd (s.carrierLsbs s.bcRdCount) (hlen.trans_le hcount)
    rwa [hlen] at hbits
  | capacity =>
    cases (exec_capacity s).symm.trans h
    exact .cap
  | encode =>
    rcases Nat.lt_or_ge s.clen.toNat (frameBits s.len.toNat) with hc | hc
    · cases (exec_encode_refused s hc).symm.trans h
      exact .raised _ _
    · cases (exec_encode_fits s hc).symm.trans h
      exact .lsbs _ _ (by rwa [length_frame_operands])
  | decode =>
    cases (exec_decode s).symm.trans h
    exact completes_acceptParsed _ s _

/-! ### The invariant, operation by operation -/

section Invariant

variable {s t : State}

/-- The invariant says nothing of the agenda, the responses and the draws (log entries 1, 2 and 5). -/
theorem State.Inv.of_host_side (h : s.Inv) (a : List Turn) (rs : List Response) (d : Nat) :
    State.Inv { s with agenda := a, responses := rs, draws := d } :=
  ⟨h.params, h.clen_le, h.bitlen_le, h.err_of_busy, h.canonical, h.within⟩

theorem State.Inv.respond (h : s.Inv) (r : Response) : (s.respond r).Inv := h.of_host_side s.agenda _ s.draws

theorem State.Inv.issue (h : s.Inv) (w : Word) : (s.issue w).Inv :=
  ⟨h.params, h.clen_le, h.bitlen_le, fun _ => rfl, h.canonical, h.within⟩

theorem State.Inv.finish (h : s.Inv) : s.finish.Inv :=
  ⟨h.params, h.clen_le, h.bitlen_le, fun _ => rfl, h.canonical, h.within⟩

theorem State.Inv.raise (h : s.Inv) (e : ErrCode) : (s.raise e).Inv :=
  ⟨h.params, h.clen_le, h.bitlen_le, fun hb => absurd rfl (busy_iff_pend.mp hb), h.canonical, h.within⟩

theorem State.Inv.setLen (h : s.Inv) (n : BitVec 16) : (s.setLen n).Inv :=
  ⟨h.params, h.clen_le, h.bitlen_le, h.err_of_busy, h.canonical, h.within⟩

theorem State.Inv.setCap (h : s.Inv) (v : Word) : (s.setCap v).Inv :=
  ⟨h.params, h.clen_le, h.bitlen_le, h.err_of_busy, h.canonical, h.within⟩

theorem State.Inv.setClen (h : s.Inv) {v : Word} (hv : v.toNat ≤ s.carrierMax.toNat) : (s.setClen v).Inv :=
  ⟨h.params, hv, h.bitlen_le, h.err_of_busy, h.canonical, h.within⟩

theorem State.Inv.setBitlen (h : s.Inv) {v : Word} (hv : v.toNat ≤ s.bitbufDepth.toNat) : (s.setBitlen v).Inv :=
  ⟨h.params, h.clen_le, hv, h.err_of_busy, h.canonical, h.within⟩

/-- A change of CARRIER that keeps its form and size keeps the invariant. -/
theorem State.Inv.withCarrier (h : s.Inv) {m : List Host.Cell}
    (hwf : Memory.wf s.carrierFill s.carrier = true → Memory.wf s.carrierFill m = true)
    (hin : Memory.within s.carrierMax.toNat s.carrier = true → Memory.within s.carrierMax.toNat m = true) :
    State.Inv { s with carrier := m } :=
  have ⟨hc, hpb⟩ := h.canonical
  have ⟨hc', hpb'⟩ := h.within
  ⟨h.params, h.clen_le, h.bitlen_le, h.err_of_busy, ⟨hwf hc, hpb⟩, ⟨hin hc', hpb'⟩⟩

/-- A change of PAYLOAD that keeps its form and size keeps the invariant. -/
theorem State.Inv.withPayload (h : s.Inv) {m : List Host.Cell}
    (hwf : Memory.wf s.payloadFill s.payload = true → Memory.wf s.payloadFill m = true)
    (hin : Memory.within Config.payloadBytes s.payload = true → Memory.within Config.payloadBytes m = true) :
    State.Inv { s with payload := m } :=
  have ⟨hc, hp, hb⟩ := h.canonical
  have ⟨hc', hp', hb'⟩ := h.within
  ⟨h.params, h.clen_le, h.bitlen_le, h.err_of_busy, ⟨hc, hwf hp, hb⟩, ⟨hc', hin hp', hb'⟩⟩

/-- A change of BITBUF that keeps its form and size keeps the invariant. -/
theorem State.Inv.withBitbuf (h : s.Inv) {m : List (Nat × Bool)}
    (hwf : Memory.wf s.bitbufFill s.bitbuf = true → Memory.wf s.bitbufFill m = true)
    (hin : Memory.within s.bitbufDepth.toNat s.bitbuf = true → Memory.within s.bitbufDepth.toNat m = true) :
    State.Inv { s with bitbuf := m } :=
  have ⟨hc, hp, hb⟩ := h.canonical
  have ⟨hc', hp', hb'⟩ := h.within
  ⟨h.params, h.clen_le, h.bitlen_le, h.err_of_busy, ⟨hc, hp, hwf hb⟩, ⟨hc', hp', hin hb'⟩⟩

theorem State.Inv.setCarrierByte (h : s.Inv) {i : Nat} (v : Byte) (hi : i < s.carrierMax.toNat) :
    (s.setCarrierByte i v).Inv := h.withCarrier (Memory.wf_write i v) (Memory.within_write v hi)

theorem State.Inv.setPayloadByte (h : s.Inv) {j : Nat} (v : Byte) (hj : j < 65535) : (s.setPayloadByte j v).Inv :=
  h.withPayload (Memory.wf_write j v) (Memory.within_write v hj)

theorem State.Inv.setBit (h : s.Inv) {k : Nat} (b : Bool) (hk : k < s.bitbufDepth.toNat) : (s.setBit k b).Inv :=
  h.withBitbuf (Memory.wf_write k b) (Memory.within_write b hk)

theorem State.Inv.writeCarrier (h : s.Inv) {vs : List Byte} (hl : vs.length ≤ s.carrierMax.toNat) :
    (s.writeCarrier vs).Inv := h.withCarrier (Memory.wf_writeSeq vs 0) (Memory.within_writeSeq vs 0 (by omega))

theorem State.Inv.writePayload (h : s.Inv) {vs : List Byte} (hl : vs.length ≤ Config.payloadBytes) :
    (s.writePayload vs).Inv := h.withPayload (Memory.wf_writeSeq vs 0) (Memory.within_writeSeq vs 0 (by omega))

theorem State.Inv.writeBits (h : s.Inv) {bs : List Bool} (hl : bs.length ≤ s.bitbufDepth.toNat) :
    (s.writeBits bs).Inv := h.withBitbuf (Memory.wf_writeSeq bs 0) (Memory.within_writeSeq bs 0 (by omega))

theorem State.Inv.putLsbs (h : s.Inv) {bs : List Bool} (hl : bs.length ≤ s.carrierMax.toNat) :
    (s.putLsbs bs).Inv :=
  h.writeCarrier (by simpa using hl)

/-- After a reset the registers and the memories are the least there are (10_state.md R38). -/
theorem State.Inv.resetBlock (h : s.Inv) : s.resetBlock.Inv :=
  ⟨h.params, Nat.zero_le _, Nat.zero_le _, fun _ => rfl, ⟨rfl, rfl, rfl⟩, ⟨rfl, rfl, rfl⟩⟩

/-! ### The invariant, turn by turn -/

/-- A command's end keeps the invariant, since what it writes lies within the memories. -/
theorem State.Inv.of_completes {i : Instr} (h : s.Inv) (hc : Completes s i t) : t.Inv := by
  obtain ⟨-, -, hframe, -⟩ := h.params
  cases hc with
  | raised _ e => exact h.raise e
  | nothing => exact h.finish
  | bits _ bs hl =>
    have hbs : bs.length ≤ s.bitbufDepth.toNat := hl.trans (max_le hframe le_rfl)
    refine ((h.writeBits hbs).setBitlen ?_).finish
    rw [BitVec.toNat_ofNat]
    exact (Nat.mod_le _ _).trans hbs
  | payload _ n q hl =>
    have hq : q.length ≤ Config.payloadBytes := hl.trans_le (Nat.le_of_lt_succ n.isLt)
    exact ((h.writePayload hq).setLen n).finish
  | lsbs _ bs hl => exact (h.putLsbs (hl.trans h.clen_le)).finish
  | cap => exact (h.setCap _).finish

theorem State.Inv.of_engineTurn (h : s.Inv) (ht : engineTurn s = .next t) : t.Inv := by
  rcases engineTurn_cases ht with ⟨-, rfl⟩ | ⟨w, i, -, -, hx⟩ | ⟨w, e, -, -, rfl⟩
  · exact h
  · exact h.of_completes (exec_completes hx)
  · exact h.raise _

theorem State.Inv.hostAccess (h : s.Inv) (x : Access) : (s.hostAccess x).Inv := by
  rcases hostAccess_cases s x with ⟨r, d, hx⟩ | ⟨-, u, hx, hu⟩
  · rw [hx]; exact h.of_host_side s.agenda _ d
  · rw [hx]
    refine State.Inv.respond ?_ .written
    rcases hu with ⟨w, -, rfl⟩ | ⟨n, rfl⟩ | ⟨v, hv, rfl⟩ | ⟨v, hv, rfl⟩ | ⟨j, v, hj, rfl⟩ | ⟨k, b, hk, rfl⟩ | ⟨i, v, hi, rfl⟩
    · exact h.issue w
    · exact h.setLen n
    · exact h.setClen hv
    · exact h.setBitlen hv
    · exact h.setPayloadByte v hj
    · exact h.setBit b hk
    · exact h.setCarrierByte v hi

theorem State.Inv.of_step (h : s.Inv) (hs : step s = .next t) : t.Inv := by
  have hagenda (rest : List Turn) : State.Inv { s with agenda := rest } := h.of_host_side rest s.responses s.draws
  rcases step_cases hs with ⟨u, hu, ht⟩ | ⟨rest, -, rfl⟩ | ⟨x, rest, -, rfl⟩
  · obtain ⟨rest, rfl, -⟩ := engineNext_dest hu
    exact (hagenda rest).of_engineTurn ht
  · exact (hagenda rest).resetBlock
  · exact (hagenda rest).hostAccess x

/-- What every step keeps holds at the end of every run. -/
theorem run_keeps {P : State → Prop} (hP : ∀ s t, P s → step s = .next t → P t) (k : Nat) (hs : P s)
    (hr : Sys2Proof.core.run k s = .next t) : P t := by
  induction k generalizing s with
  | zero => cases run_zero.symm.trans hr; exact hs
  | succ k ih =>
    obtain ⟨u, hu, hr⟩ := run_succ_next hr
    exact ih (hP s u hs hu) hr

end Invariant

/-! ### The OPEN parameters (00_scope.md R4) -/

theorem one_le_carrierMax : 1 ≤ Config.carrierMax := Nat.le_add_left _ _

theorem carrierMax_le : Config.carrierMax ≤ Config.carrierLimit := Config.carrierMaxLessOne.isLt

theorem frameMaxBits_le_bitbufDepth : Config.frameMaxBits ≤ Config.bitbufDepth := Nat.le_add_left _ _

theorem bitbufDepth_le : Config.bitbufDepth ≤ Config.bitbufLimit :=
  Nat.add_le_add_right (Nat.le_of_lt_succ Config.bitbufExtra.isLt) _

/-- CARRIER_MAX fits its register, so the register shows the parameter (10_state.md R28). -/
theorem carrierMax_reset : State.reset.carrierMax.toNat = Config.carrierMax :=
  (BitVec.toNat_ofNat _ _).trans (Nat.mod_eq_of_lt (carrierMax_le.trans_lt (by decide)))

/-- BITBUF_DEPTH fits its register, so the register shows the parameter (10_state.md R29). -/
theorem bitbufDepth_reset : State.reset.bitbufDepth.toNat = Config.bitbufDepth :=
  (BitVec.toNat_ofNat _ _).trans (Nat.mod_eq_of_lt (bitbufDepth_le.trans_lt (by decide)))

theorem paramsOk_reset : State.reset.paramsOk := by
  rw [State.paramsOk, carrierMax_reset, bitbufDepth_reset]
  exact ⟨one_le_carrierMax, carrierMax_le, frameMaxBits_le_bitbufDepth, bitbufDepth_le⟩

/-- The codes 7 to 15 stand for no error (60_exceptions.md R160). -/
theorem errValue_le (e : ErrCode) : (errValue e).toNat ≤ 6 := by cases e <;> decide

/-! ### The constants and CAP under every step -/

/-- The two states hold the same constants (10_state.md R21, R28, R29). -/
def SameParams (s t : State) : Prop :=
  t.marker = s.marker ∧ t.carrierMax = s.carrierMax ∧ t.bitbufDepth = s.bitbufDepth

section Frames

variable {s t : State}

theorem sameParams_of_completes {i : Instr} (h : Completes s i t) : SameParams s t := by
  cases h <;> exact ⟨rfl, rfl, rfl⟩

theorem pend_of_completes {i : Instr} (h : Completes s i t) : t.pend = none := by
  cases h <;> rfl

/-- Of the commands CAPACITY alone writes CAP (42_pipeline.md R141). -/
theorem cap_of_completes {i : Instr} (h : Completes s i t) :
    t.cap = s.cap ∨ i = .capacity ∧ t.cap = BitVec.ofInt 32 (available s.clen.toNat) := by
  cases h
  case cap => exact .inr ⟨rfl, rfl⟩
  all_goals exact .inl rfl

theorem sameParams_of_engineTurn (h : engineTurn s = .next t) : SameParams s t := by
  rcases engineTurn_cases h with ⟨-, rfl⟩ | ⟨w, i, -, -, hx⟩ | ⟨w, e, -, -, rfl⟩
  · exact ⟨rfl, rfl, rfl⟩
  · exact sameParams_of_completes (exec_completes hx)
  · exact ⟨rfl, rfl, rfl⟩

theorem hostAccess_frame (x : Access) : SameParams s (s.hostAccess x) ∧ (s.hostAccess x).cap = s.cap := by
  rcases hostAccess_cases s x with ⟨r, d, hx⟩ | ⟨-, u, hx, hu⟩
  · rw [hx]; exact ⟨⟨rfl, rfl, rfl⟩, rfl⟩
  · rw [hx]
    rcases hu with ⟨w, -, rfl⟩ | ⟨n, rfl⟩ | ⟨v, -, rfl⟩ | ⟨v, -, rfl⟩ | ⟨j, v, -, rfl⟩ | ⟨k, b, -, rfl⟩ | ⟨i, v, -, rfl⟩ <;>
      exact ⟨⟨rfl, rfl, rfl⟩, rfl⟩

theorem sameParams_of_step (h : step s = .next t) : SameParams s t := by
  rcases step_cases h with ⟨u, hu, ht⟩ | ⟨rest, -, rfl⟩ | ⟨x, rest, -, rfl⟩
  · obtain ⟨rest, rfl, -⟩ := engineNext_dest hu
    exact sameParams_of_engineTurn (s := { s with agenda := rest }) ht
  · exact ⟨rfl, rfl, rfl⟩
  · exact (hostAccess_frame (s := { s with agenda := rest }) x).1

/-- `floor(c / 8) - 6` fits a two's-complement word for every CLEN (42_pipeline.md R141). -/
theorem toInt_available (c : Word) : (BitVec.ofInt 32 (available c.toNat)).toInt = (c.toNat : Int) / 8 - 6 := by
  have := c.isLt
  rw [BitVec.toInt_ofInt, available]
  exact (Int.bmod_eq_of_le (by omega) (by omega)).trans (by omega)

end Frames

/-! ### A command in flight while the host goes on -/

theorem step_access_of_busy {s : State} {x : Access} {rest : List Turn} (ha : s.agenda = .access x :: rest)
    (hp : s.pend ≠ none) :
    ∃ t, step s = .next t ∧ ∃ r d, t = { s with agenda := rest, responses := r :: s.responses, draws := d } := by
  obtain ⟨r, d, hx⟩ := hostAccess_of_busy (s := { s with agenda := rest }) x hp
  exact ⟨_, step_of_access ha, r, d, hx⟩

/-- Accesses while a command is in flight, then the Engine's turn: each access leaves the word in flight and the
operands, so the run ends as the command does on the state at issue, by induction on the accesses. -/
theorem run_accesses_then_engine {w : Word} {i : Instr} (hd : decodeCommand w = .ok i) (rest : List Turn)
    (xs : List Access) (s : State) (hp : s.pend = some w)
    (ha : s.agenda = List.map Turn.access xs ++ .engine :: rest) :
    ∃ t rs d, Sys2Proof.core.run (xs.length + 1) s = .next t ∧ rs.length = s.responses.length + xs.length ∧
      exec i { s with agenda := rest, responses := rs, draws := d } = .next t := by
  induction xs generalizing s with
  | nil =>
    obtain ⟨t, ht⟩ := exec_next { s with agenda := rest } i
    have hstep : step s = .next t :=
      (step_of_engine ha).trans ((engineTurn_of_command (s := { s with agenda := rest }) hp hd).trans ht)
    exact ⟨t, s.responses, s.draws, run_succ 0 hstep, rfl, ht⟩
  | cons x xs ih =>
    have hbusy : s.pend ≠ none := by simp [hp]
    obtain ⟨u, hstep, r, d, rfl⟩ := step_access_of_busy ha hbusy
    obtain ⟨t, rs, d', hrun, hlen, ht⟩ := ih { s with agenda := _, responses := r :: s.responses, draws := d } hp rfl
    refine ⟨t, rs, d', (run_succ _ hstep).trans hrun, ?_, ht⟩
    rw [hlen, List.length_cons, List.length_cons]
    omega

/-! ### The obligations -/

/-- Settles O1: the turn taken leaves PEND, so the word decoded is the one in flight. -/
theorem stepRunsDecodedCommand : Obligations.StepRunsDecodedCommand := by
  intro s u w i hu hp hd
  obtain ⟨rest, rfl, hstep⟩ := engineNext_dest hu
  exact hstep.trans (engineTurn_of_command hp hd)

/-- Settles O25: STATUS is a function of ERR and BUSY, whose values are few. -/
theorem statusFields : Obligations.StatusFields := by
  intro s
  have hbusy : s.pend.isSome = s.busy := rfl
  rw [hbusy, State.status]
  cases s.err <;> cases s.busy <;> decide

/-- Settles O36: one step lemma of a register access for each clause. -/
theorem cmdPort : Obligations.CmdPort := by
  refine ⟨fun s u w hn hp => ?_, fun s u w hn hp => ?_, fun s u hn => ?_⟩
  · exact ⟨_, step_write32_reg (r := .cmd) hn hp rfl, rfl, State.issue_status u w⟩
  · exact step_write32_of_busy hn hp
  · exact step_read32_reg (r := .cmd) hn rfl

/-- Settles O39: each address is that of a register, which shows the word listed with it. -/
theorem registerReads : Obligations.RegisterReads := by
  intro s u a v hp hn hav
  have hreg : ∃ r, regAt a.toNat = some r ∧ s.regValue r = v := by
    simp only [List.mem_cons, List.not_mem_nil, or_false, Prod.mk.injEq] at hav
    rcases hav with ⟨rfl, rfl⟩ | ⟨rfl, rfl⟩ | ⟨rfl, rfl⟩ | ⟨rfl, rfl⟩ | ⟨rfl, rfl⟩ | ⟨rfl, rfl⟩ | ⟨rfl, rfl⟩ |
      ⟨rfl, rfl⟩ | ⟨rfl, rfl⟩
    exacts [⟨.marker, rfl, rfl⟩, ⟨.cmd, rfl, rfl⟩, ⟨.status, rfl, rfl⟩, ⟨.len, rfl, rfl⟩, ⟨.clen, rfl, rfl⟩,
      ⟨.bitlen, rfl, rfl⟩, ⟨.cap, rfl, rfl⟩, ⟨.carrierMax, rfl, rfl⟩, ⟨.bitbufDepth, rfl, rfl⟩]
  obtain ⟨r, hr, rfl⟩ := hreg
  exact step_read32_reg_of_idle hn hp hr

/-- Settles O50: each register by evaluation, the two parameters by their fit in 32 bits. -/
theorem resetState : Obligations.ResetState :=
  ⟨rfl, by decide, rfl, rfl, rfl, by decide, rfl, carrierMax_reset, bitbufDepth_reset,
    fun _ => rfl, fun _ => rfl, fun _ => rfl⟩

/-- Settles O52: at reset the registers are 0, no command is in flight and the memories list nothing. -/
theorem resetMeetsInvariant : Obligations.ResetMeetsInvariant :=
  ⟨paramsOk_reset, Nat.zero_le _, Nat.zero_le _, fun _ => rfl, ⟨rfl, rfl, rfl⟩, ⟨rfl, rfl, rfl⟩⟩

/-- Settles O40: CLEN and BITLEN are held against CARRIER_MAX and BITBUF_DEPTH, which the turn taken does not change. -/
theorem hostWritesLenClenBitlen : Obligations.HostWritesLenClenBitlen := by
  intro s u v hp
  refine ⟨fun hn => ?_, fun hn => ?_, fun hn => ?_⟩
  · have hstep := step_write32_reg (r := .len) hn hp rfl
    refine ⟨fun hv => ?_, fun hv => ?_⟩
    · rw [writeReg_len_legal hv] at hstep
      exact ⟨_, hstep, (BitVec.toNat_setWidth 16 v).trans (Nat.mod_eq_of_lt (by omega)), rfl⟩
    · rw [hstep, writeReg_len_illegal hv]; rfl
  · have hmax : u.carrierMax = s.carrierMax := regValue_of_hostNext hn .carrierMax
    rw [step_write32_reg (r := .clen) hn hp rfl, ← hmax]
    exact ⟨fun hv => congrArg _ (if_pos hv), fun hv => congrArg _ (if_neg (Nat.not_le.mpr hv))⟩
  · have hdepth : u.bitbufDepth = s.bitbufDepth := regValue_of_hostNext hn .bitbufDepth
    rw [step_write32_reg (r := .bitlen) hn hp rfl, ← hdepth]
    exact ⟨fun hv => congrArg _ (if_pos hv), fun hv => congrArg _ (if_neg (Nat.not_le.mpr hv))⟩

/-- Settles O43: by the cases of a step for the first clause, and by the step lemmas of the three registers. -/
theorem constantRegisters : Obligations.ConstantRegisters := by
  refine ⟨fun _ _ => sameParams_of_step, fun s u a v ha hn => ?_, fun s u hn => ?_, fun s u hn => ?_,
    fun s u hn => ?_⟩
  · simp only [List.mem_cons, List.not_mem_nil, or_false] at ha
    rcases ha with rfl | rfl | rfl
    · exact step_write32_refused (r := .marker) hn rfl rfl
    · exact step_write32_refused (r := .carrierMax) hn rfl rfl
    · exact step_write32_refused (r := .bitbufDepth) hn rfl rfl
  · have hmarker : u.marker = s.marker := regValue_of_hostNext hn .marker
    refine ⟨_, u.marker, step_read32_reg (r := .marker) hn rfl, rfl, fun k hk => ?_⟩
    rw [hmarker, State.markerBits, getElem?_bitsMsbFirst, if_pos hk]
  · have hmax : u.carrierMax = s.carrierMax := regValue_of_hostNext hn .carrierMax
    rw [← hmax]
    exact step_read32_reg (r := .carrierMax) hn rfl
  · have hdepth : u.bitbufDepth = s.bitbufDepth := regValue_of_hostNext hn .bitbufDepth
    rw [← hdepth]
    exact step_read32_reg (r := .bitbufDepth) hn rfl

/-- Settles O44, by the cases of a step; of the Engine's turns only CAPACITY's end writes CAP. -/
theorem capWrittenOnlyByCapacityAndReset : Obligations.CapWrittenOnlyByCapacityAndReset := by
  intro s t h
  rcases step_cases h with ⟨u, hu, ht⟩ | ⟨rest, ha, rfl⟩ | ⟨x, rest, -, rfl⟩
  · obtain ⟨rest, rfl, -⟩ := engineNext_dest hu
    rcases engineTurn_cases ht with ⟨-, rfl⟩ | ⟨w, i, hp, hd, hx⟩ | ⟨w, e, -, -, rfl⟩
    · exact .inl rfl
    · have hc := exec_completes hx
      rcases cap_of_completes hc with hcap | ⟨rfl, hcap⟩
      · exact .inl hcap
      · have hw : w = 0x00000010#32 := (encodeCommand_of_decodeCommand hd).symm
        exact .inr (.inr ⟨hw ▸ hp, pend_of_completes hc, by rw [hcap, toInt_available]⟩)
    · exact .inl rfl
  · exact .inr (.inl ⟨rest, ha, rfl⟩)
  · exact .inl (hostAccess_frame (s := { s with agenda := rest }) x).2

/-- Settles O45, since a busy access adds a response and at most a draw. -/
theorem busyAccessesChangeNothing : Obligations.BusyAccessesChangeNothing := by
  intro s x u hp hn
  obtain ⟨r, d, hx⟩ := hostAccess_of_busy x (pend_of_hostNext hn ▸ hp)
  exact ⟨_, (step_of_hostNext hn).trans (congrArg _ hx), rfl⟩

/-- Settles O46, by `run_accesses_then_engine`. -/
theorem operandsAtCompletionAreThoseAtIssue : Obligations.OperandsAtCompletionAreThoseAtIssue :=
  fun s _ _ xs rest hp hd ha => run_accesses_then_engine hd rest xs s hp ha

/-- Settles O53, by the cases of a step: an end of a command, a reset, or a host access. -/
theorem stepKeepsInvariant : Obligations.StepKeepsInvariant := fun _ _ h hs => h.of_step hs

/-- Settles O54: the invariant holds at reset under every agenda and after every run, and gives the bounds; BUSY and ERR
are fields of STATUS. -/
theorem reachableStatesMeetR37 : Obligations.ReachableStatesMeetR37 := by
  intro a k t hr
  have hinit : State.Inv { State.reset with agenda := a } := resetMeetsInvariant.of_host_side a _ _
  have ht : t.Inv := run_keeps stepKeepsInvariant k hinit hr
  obtain ⟨hbusy, -, herr, -⟩ := statusFields t
  refine ⟨Nat.le_of_lt_succ t.len.isLt, ht.clen_le, ht.bitlen_le, ?_, ?_⟩
  · rw [hbusy, Option.isSome_iff_ne_none]
  · rw [herr]; exact errValue_le t.err

end Sys2Proof.Machine

/-!
Proofs of the statements about the memories (20_memory.md). First what each command leaves unchanged, by the end it comes
to; then the commands on two carriers that agree in their LSBs; then the address map and what the host's accesses do.
-/

namespace Sys2Proof.Machine

open Claims

/-! ### What the ends of a command leave unchanged -/

section CommandFrames

variable {s t : State}

/-- Bits 7:1 survive `lsb_put` (41_bit_channel.md R120). -/
theorem upperBits_lsbPut (c : Byte) (b : Bool) : (lsbPut c b).extractLsb' 1 7 = c.extractLsb' 1 7 := by
  revert c b; decide

theorem upperBits_putLsbs (s : State) (bs : List Bool) (x : Nat) :
    ((s.putLsbs bs).carrierByte x).extractLsb' 1 7 = (s.carrierByte x).extractLsb' 1 7 := by
  rw [carrierByte_putLsbs]
  split
  · exact upperBits_lsbPut _ _
  · rfl

theorem carrierByte_putLsbs_of_le (s : State) {bs : List Bool} {x : Nat} (h : bs.length ≤ x) :
    (s.putLsbs bs).carrierByte x = s.carrierByte x := by
  rw [carrierByte_putLsbs, dif_neg (Nat.not_lt.mpr h)]

theorem bit_writeBits_of_le (s : State) {bs : List Bool} {k : Nat} (h : bs.length ≤ k) :
    (s.writeBits bs).bit k = s.bit k := by
  rw [bit_writeBits, List.getElem?_eq_none h, Option.getD_none]

theorem payloadByte_writePayload_of_le (s : State) {q : List Byte} {j : Nat} (h : q.length ≤ j) :
    (s.writePayload q).payloadByte j = s.payloadByte j := by
  rw [payloadByte_writePayload, List.getElem?_eq_none h, Option.getD_none]

theorem constantsSame_of_completes {i : Instr} (h : Completes s i t) : ConstantsSame s t := by
  cases h <;> exact ⟨rfl, rfl, rfl, rfl⟩

theorem ownSame_of_completes {i : Instr} (h : Completes s i t) : OwnSame s t := by
  cases h <;> exact ⟨rfl, rfl, rfl, rfl⟩

/-- Of the ends of a command only the LSB writes reach CARRIER, and these stay below CLEN (20_memory.md R52). -/
theorem carrierByte_of_completes {i : Instr} (h : Completes s i t) :
    (∀ k, (t.carrierByte k).extractLsb' 1 7 = (s.carrierByte k).extractLsb' 1 7) ∧
    (∀ k, s.clen.toNat ≤ k → t.carrierByte k = s.carrierByte k) := by
  cases h
  case lsbs bs hl => exact ⟨upperBits_putLsbs s bs, fun _ hk => carrierByte_putLsbs_of_le s (hl.trans hk)⟩
  all_goals exact ⟨fun _ => rfl, fun _ _ => rfl⟩

/-- FR_ENC and BC_RD store a bit sequence, of 48 + 8 LEN and of min(CLEN, BITBUF_DEPTH) bits. -/
theorem exec_bitStorer {i : Instr} (hi : i ∈ [Instr.frEnc, Instr.bcRd]) (h : exec i s = .next t) :
    ∃ bs v, bs.length = (if i = .frEnc then frameBits s.len.toNat else s.bcRdCount) ∧
      t = ((s.writeBits bs).setBitlen v).finish := by
  simp only [List.mem_cons, List.not_mem_nil, or_false] at hi
  rcases hi with rfl | rfl
  · cases (exec_frEnc s).symm.trans h
    exact ⟨_, _, length_frame_operands s, rfl⟩
  · cases (exec_bcRd s).symm.trans h
    exact ⟨_, _, length_carrierLsbs s _, rfl⟩

/-- FR_DEC and DECODE end as `parse` answers on the bits they decode. -/
theorem exec_parser {i : Instr} (hi : i ∈ [Instr.frDec, Instr.decode]) (s : State) :
    exec i s = .next (s.acceptParsed (parse s.markerBits (decodedBits i s))) := by
  simp only [List.mem_cons, List.not_mem_nil, or_false] at hi
  rcases hi with rfl | rfl
  · exact exec_frDec s
  · exact exec_decode s

/-- BC_WR and ENCODE report an error, or store LSBs: BITLEN and 48 + 8 LEN of them. -/
theorem exec_lsbStorer {i : Instr} (hi : i ∈ [Instr.bcWr, Instr.encode]) (h : exec i s = .next t) :
    (∃ e, t = s.raise e) ∨
    ∃ bs, bs.length = (if i = .bcWr then s.bitlen.toNat else frameBits s.len.toNat) ∧ t = (s.putLsbs bs).finish := by
  simp only [List.mem_cons, List.not_mem_nil, or_false] at hi
  rcases hi with rfl | rfl
  · rcases Nat.lt_or_ge s.clen.toNat s.bitlen.toNat with hc | hc
    · cases (exec_bcWr_refused s hc).symm.trans h
      exact .inl ⟨_, rfl⟩
    · cases (exec_bcWr_fits s hc).symm.trans h
      exact .inr ⟨_, length_bits s _, rfl⟩
  · rcases Nat.lt_or_ge s.clen.toNat (frameBits s.len.toNat) with hc | hc
    · cases (exec_encode_refused s hc).symm.trans h
      exact .inl ⟨_, rfl⟩
    · cases (exec_encode_fits s hc).symm.trans h
      exact .inr ⟨_, length_frame_operands s, rfl⟩

/-- Whatever `parse` answers, a decode leaves BITLEN, CAP, CARRIER and BITBUF. -/
theorem acceptParsed_frame (s : State) (r : Except ErrCode (BitVec 16 × List Byte)) :
    (s.acceptParsed r).bitlen = s.bitlen ∧ (s.acceptParsed r).cap = s.cap ∧ CarrierSame s (s.acceptParsed r) ∧
    BitbufSame s (s.acceptParsed r) := by
  cases r <;> exact ⟨rfl, rfl, fun _ => rfl, fun _ => rfl⟩

end CommandFrames

/-! ### Carriers that agree in their LSBs below CLEN -/

/-- The two states differ in CARRIER alone, and there not in an LSB below CLEN (20_memory.md R52). -/
structure LsbAgree (s s' : State) : Prop where
  eq_withCarrier : ∃ c, s' = { s with carrier := c }
  lsbs_eq : ∀ k, k < s.clen.toNat → lsbs s' k = lsbs s k

section LsbAgree

variable {s s' : State}

theorem lsbs_putLsbs (s : State) (bs : List Bool) (k : Nat) : lsbs (s.putLsbs bs) k = (bs[k]?).getD (lsbs s k) := by
  rw [lsbs, carrierByte_putLsbs]
  split
  · rename_i hk
    rw [List.getElem?_eq_getElem hk]
    exact lsbGet_lsbPut _ _
  · rename_i hk
    rw [List.getElem?_eq_none (Nat.not_lt.mp hk)]
    rfl

/-- The LSBs a command reads are those that agree. -/
theorem LsbAgree.carrierLsbs_eq (h : LsbAgree s s') {n : Nat} (hn : n ≤ s.clen.toNat) :
    s'.carrierLsbs n = s.carrierLsbs n := by
  apply List.ext_getElem?
  intro k
  rw [getElem?_carrierLsbs, getElem?_carrierLsbs]
  split
  · exact congrArg some (h.lsbs_eq k (by omega))
  · rfl

theorem LsbAgree.acceptParsed (h : LsbAgree s s') (r : Except ErrCode (BitVec 16 × List Byte)) :
    LsbAgree (s.acceptParsed r) (s'.acceptParsed r) := by
  obtain ⟨⟨c, rfl⟩, hl⟩ := h
  cases r <;> exact ⟨⟨c, rfl⟩, hl⟩

theorem LsbAgree.raise (h : LsbAgree s s') (e : ErrCode) : LsbAgree (s.raise e) (s'.raise e) :=
  h.acceptParsed (.error e)

theorem LsbAgree.putLsbs_finish (h : LsbAgree s s') (bs : List Bool) :
    LsbAgree (s.putLsbs bs).finish (s'.putLsbs bs).finish := by
  obtain ⟨⟨c, rfl⟩, hl⟩ := h
  refine ⟨⟨_, rfl⟩, fun k hk => ?_⟩
  calc lsbs (State.putLsbs { s with carrier := c } bs) k
      = (bs[k]?).getD (lsbs { s with carrier := c } k) := lsbs_putLsbs _ bs k
    _ = (bs[k]?).getD (lsbs s k) := by rw [hl k hk]
    _ = lsbs (s.putLsbs bs) k := (lsbs_putLsbs s bs k).symm

/-- Every command takes states that agree to states that agree (20_memory.md R52). -/
theorem LsbAgree.exec (h : LsbAgree s s') (i : Instr) :
    ∃ t t', exec i s = .next t ∧ exec i s' = .next t' ∧ LsbAgree t t' := by
  have hread {n : Nat} (hn : n ≤ s.clen.toNat) := h.carrierLsbs_eq hn
  have hraise := h.raise
  have hput := h.putLsbs_finish
  have hparse := h.acceptParsed
  obtain ⟨⟨c, rfl⟩, hl⟩ := h
  cases i with
  | nop => exact ⟨_, _, exec_nop _, exec_nop _, ⟨c, rfl⟩, hl⟩
  | frEnc => exact ⟨_, _, exec_frEnc _, exec_frEnc _, ⟨c, rfl⟩, hl⟩
  | frDec => exact ⟨_, _, exec_frDec _, exec_frDec _, hparse _⟩
  | bcWr =>
    rcases Nat.lt_or_ge s.clen.toNat s.bitlen.toNat with hc | hc
    · exact ⟨_, _, exec_bcWr_refused _ hc, exec_bcWr_refused _ hc, hraise _⟩
    · exact ⟨_, _, exec_bcWr_fits _ hc, exec_bcWr_fits _ hc, hput _⟩
  | bcRd =>
    have hcount : State.bcRdCount { s with carrier := c } ≤ s.clen.toNat := min_le_left _ _
    refine ⟨_, _, exec_bcRd _, exec_bcRd _, ?_⟩
    rw [hread hcount]
    exact ⟨⟨c, rfl⟩, hl⟩
  | capacity => exact ⟨_, _, exec_capacity _, exec_capacity _, ⟨c, rfl⟩, hl⟩
  | encode =>
    rcases Nat.lt_or_ge s.clen.toNat (frameBits s.len.toNat) with hc | hc
    · exact ⟨_, _, exec_encode_refused _ hc, exec_encode_refused _ hc, hraise _⟩
    · exact ⟨_, _, exec_encode_fits _ hc, exec_encode_fits _ hc, hput _⟩
  | decode =>
    refine ⟨_, _, exec_decode _, exec_decode _, ?_⟩
    rw [hread le_rfl]
    exact hparse _

end LsbAgree

/-! ### The address map: where each memory element stands -/

section AddressMap

variable {s : State} {a : Word}

/-- PAYLOAD byte `j` stands at 0x00010000 + j (20_memory.md R51, R53). -/
theorem regionAt_payload_iff {j : Nat} : s.regionAt a = .payload j ↔ j < 65535 ∧ a.toNat = 0x00010000 + j := by
  unfold State.regionAt
  simp only
  repeat' split
  all_goals simp only [Region.payload.injEq, reduceCtorEq, false_iff]
  all_goals omega

/-- BITBUF bit `k` stands at 0x01000000 + k; the window ends before CARRIER's since BITBUF_DEPTH is at most 2^24
(20_memory.md R51, R54; 00_scope.md R4). -/
theorem regionAt_bitbuf_iff (hd : s.bitbufDepth.toNat ≤ Config.bitbufLimit) {k : Nat} :
    s.regionAt a = .bitbuf k ↔ k < s.bitbufDepth.toNat ∧ a.toNat = 0x01000000 + k := by
  unfold Config.bitbufLimit at hd
  unfold State.regionAt
  simp only
  repeat' split
  all_goals simp only [Region.bitbuf.injEq, reduceCtorEq, false_iff]
  all_goals omega

/-- CARRIER byte `i` stands at 0x80000000 + i (20_memory.md R51, R52). -/
theorem regionAt_carrier_iff {i : Nat} :
    s.regionAt a = .carrier i ↔ i < s.carrierMax.toNat ∧ a.toNat = 0x80000000 + i := by
  unfold State.regionAt
  simp only
  repeat' split
  all_goals simp only [Region.carrier.injEq, reduceCtorEq, false_iff]
  all_goals omega

/-- A memory element stands at the address. -/
def Region.isMemory : Region → Prop
  | .register _ => False
  | .payload _ => True
  | .bitbuf _ => True
  | .carrier _ => True
  | .none => False

/-- The addresses of the memory windows are those of their elements (20_memory.md R51). -/
theorem isMemory_regionAt_iff (hd : s.bitbufDepth.toNat ≤ Config.bitbufLimit) :
    (s.regionAt a).isMemory ↔
      (0x00010000 ≤ a.toNat ∧ a.toNat ≤ 0x0001FFFE) ∨
      (0x01000000 ≤ a.toNat ∧ a.toNat < 0x01000000 + s.bitbufDepth.toNat) ∨
      (0x80000000 ≤ a.toNat ∧ a.toNat < 0x80000000 + s.carrierMax.toNat) := by
  constructor
  · intro h
    cases hr : s.regionAt a with
    | register r => rw [hr] at h; exact h.elim
    | payload j => have := regionAt_payload_iff.mp hr; omega
    | bitbuf k => have := (regionAt_bitbuf_iff hd).mp hr; omega
    | carrier i => have := regionAt_carrier_iff.mp hr; omega
    | none => rw [hr] at h; exact h.elim
  · rintro (h | h | h)
    · rw [(regionAt_payload_iff (j := a.toNat - 0x00010000)).mpr (by omega)]; trivial
    · rw [(regionAt_bitbuf_iff hd (k := a.toNat - 0x01000000)).mpr (by omega)]; trivial
    · rw [(regionAt_carrier_iff (i := a.toNat - 0x80000000)).mpr (by omega)]; trivial

/-- A register's byte offset (10_state.md section 2). -/
def Reg.offset : Reg → Nat
  | .marker => 0x00
  | .cmd => 0x04
  | .status => 0x08
  | .len => 0x0C
  | .clen => 0x10
  | .bitlen => 0x14
  | .cap => 0x18
  | .carrierMax => 0x1C
  | .bitbufDepth => 0x20

theorem offset_of_regAt {n : Nat} {r : Reg} (h : regAt n = some r) : n = r.offset := by
  unfold regAt at h
  repeat' split at h
  all_goals cases h
  all_goals assumption

end AddressMap

/-! ### The host's accesses -/

section Accesses

variable {s : State} {a v : Word}

/-- With the host's access next, the turn taken changes the agenda alone. -/
theorem hostNext_dest {u : State} {x : Access} (h : HostNext s x u) :
    ∃ rest, u = { s with agenda := rest } ∧ step s = .next (u.hostAccess x) :=
  ⟨u.agenda, And.right h, step_of_hostNext h⟩

theorem hostAccess_read32_of_no_reg (h : ¬ ∃ r, regAt a.toNat = some r) :
    s.hostAccess (.read32 a) = s.respond .buserr := by
  rw [State.hostAccess, State.read32]
  cases hr : s.regionAt a
  case register r => exact absurd ⟨r, (regionAt_register_iff s a r).mp hr⟩ h
  all_goals rfl

theorem hostAccess_write32_of_no_reg (h : ¬ ∃ r, regAt a.toNat = some r) :
    s.hostAccess (.write32 a v) = s.respond .buserr := by
  rw [State.hostAccess, State.write32]
  split
  · rfl
  · cases hr : s.regionAt a
    case register r => exact absurd ⟨r, (regionAt_register_iff s a r).mp hr⟩ h
    all_goals rfl

/-- What a Read8 of a memory element gives (20_memory.md R54). -/
def State.elementView (s : State) : Region → Byte
  | .register _ => 0#8
  | .payload j => s.payloadByte j
  | .bitbuf k => bitView (s.bit k)
  | .carrier i => s.carrierByte i
  | .none => 0#8

/-- What a Write8 to a memory element stores (20_memory.md R54). -/
def State.setElement (s : State) (b : Byte) : Region → State
  | .register _ => s
  | .payload j => s.setPayloadByte j b
  | .bitbuf k => s.setBit k (b.getLsbD 0)
  | .carrier i => s.setCarrierByte i b
  | .none => s

theorem hostAccess_read8_memory {g : Region} (hp : s.pend = none) (hg : s.regionAt a = g) (hm : g.isMemory) :
    s.hostAccess (.read8 a) = s.respond (.data8 (s.elementView g)) := by
  rw [State.hostAccess, State.read8, busy_eq_false_of_idle hp, if_neg Bool.false_ne_true, hg]
  cases g
  case register | none => exact hm.elim
  all_goals rfl

theorem hostAccess_write8_memory (b : Byte) {g : Region} (hp : s.pend = none) (hg : s.regionAt a = g)
    (hm : g.isMemory) : s.hostAccess (.write8 a b) = (s.setElement b g).respond .written := by
  rw [State.hostAccess, State.write8, busy_eq_false_of_idle hp, if_neg Bool.false_ne_true, hg]
  cases g
  case register | none => exact hm.elim
  all_goals rfl

/-- The byte accesses the block refuses: every one while busy, and those outside the memory windows (20_memory.md R55;
70_reset_and_hazards.md R194). -/
theorem hostAccess_byte_refused (b : Byte) (h : ¬ (s.pend = none ∧ (s.regionAt a).isMemory)) :
    s.hostAccess (.read8 a) = s.respond .buserr ∧ s.hostAccess (.write8 a b) = s.respond .buserr := by
  rw [State.hostAccess, State.hostAccess, State.read8, State.write8]
  by_cases hp : s.pend = none
  · rw [busy_eq_false_of_idle hp, if_neg Bool.false_ne_true, if_neg Bool.false_ne_true]
    have hm : ¬ (s.regionAt a).isMemory := fun hm => h ⟨hp, hm⟩
    cases hg : s.regionAt a
    case register | none => exact ⟨rfl, rfl⟩
    all_goals exact absurd (hg ▸ trivial) hm
  · exact ⟨if_pos (busy_iff_pend.mpr hp), if_pos (busy_iff_pend.mpr hp)⟩

/-- A read adds a response and at most a draw (20_memory.md R59). -/
theorem hostAccess_of_read {x : Access} (hx : x = .read32 a ∨ x = .read8 a) :
    ∃ r d, s.hostAccess x = { s with responses := r :: s.responses, draws := d } := by
  rcases hx with rfl | rfl
  · by_cases hr : ∃ r, regAt a.toNat = some r
    · obtain ⟨r, hr⟩ := hr
      obtain ⟨v, d, hv⟩ := readReg_eq s r
      exact ⟨_, d, (hostAccess_read32_reg hr).trans hv⟩
    · exact ⟨_, s.draws, hostAccess_read32_of_no_reg hr⟩
  · by_cases hm : s.pend = none ∧ (s.regionAt a).isMemory
    · obtain ⟨hp, hm⟩ := hm
      exact ⟨_, s.draws, hostAccess_read8_memory hp rfl hm⟩
    · exact ⟨_, s.draws, (hostAccess_byte_refused 0#8 hm).1⟩

/-! ### The accesses that are bus errors -/

/-- `t` is `s` after an access that is a bus error, without effect, unless it is `accepted` (20_memory.md R57). -/
def Answers (s t : State) (accepted : Prop) : Prop :=
  ∃ r, t.responses = r :: s.responses ∧ (r = .buserr ↔ ¬ accepted) ∧ (r = .buserr → t = s.respond .buserr)

theorem Answers.refused {p : Prop} (h : ¬ p) : Answers s (s.respond .buserr) p :=
  ⟨.buserr, rfl, iff_of_true rfl h, fun _ => rfl⟩

theorem Answers.ok {t : State} {p : Prop} {r : Response} (h : p) (ht : t.responses = r :: s.responses)
    (hr : r ≠ .buserr) : Answers s t p :=
  ⟨r, ht, iff_of_false hr (not_not_intro h), fun he => absurd he hr⟩

/-- The values a register takes from the host (10_state.md R21 to R29). -/
def State.takes (s : State) (v : Word) : Reg → Prop
  | .cmd => True
  | .len => v.toNat ≤ 65535
  | .clen => v.toNat ≤ s.carrierMax.toNat
  | .bitlen => v.toNat ≤ s.bitbufDepth.toNat
  | .marker | .status | .cap | .carrierMax | .bitbufDepth => False

theorem writeReg_answers (s : State) (r : Reg) (v : Word) : Answers s (s.writeReg r v) (s.takes v r) := by
  cases r with
  | cmd => exact .ok trivial rfl (by decide)
  | len =>
    rcases Nat.lt_or_ge 65535 v.toNat with hv | hv
    · rw [writeReg_len_illegal hv]; exact .refused (Nat.not_le.mpr hv)
    · rw [writeReg_len_legal hv]; exact .ok hv rfl (by decide)
  | clen =>
    simp only [State.writeReg]
    split
    · exact .ok ‹_› rfl (by decide)
    · exact .refused ‹_›
  | bitlen =>
    simp only [State.writeReg]
    split
    · exact .ok ‹_› rfl (by decide)
    · exact .refused ‹_›
  | marker | status | cap | carrierMax | bitbufDepth => exact .refused not_false

theorem accepted_write32_iff :
    Accepted s (.write32 a v) ↔ s.pend = none ∧ ∃ r, regAt a.toNat = some r ∧ s.takes v r := by
  refine and_congr_right fun _ => ⟨?_, ?_⟩
  · rintro (rfl | ⟨rfl, hv⟩ | ⟨rfl, hv⟩ | ⟨rfl, hv⟩)
    · exact ⟨.cmd, rfl, trivial⟩
    · exact ⟨.len, rfl, hv⟩
    · exact ⟨.clen, rfl, hv⟩
    · exact ⟨.bitlen, rfl, hv⟩
  · rintro ⟨r, hr, hv⟩
    have ha : a = BitVec.ofNat 32 r.offset := by rw [← offset_of_regAt hr, BitVec.ofNat_toNat, BitVec.setWidth_eq]
    cases r
    case cmd => exact .inl ha
    case len => exact .inr (.inl ⟨ha, hv⟩)
    case clen => exact .inr (.inr (.inl ⟨ha, hv⟩))
    case bitlen => exact .inr (.inr (.inr ⟨ha, hv⟩))
    all_goals exact hv.elim

theorem write32_answers (s : State) (a v : Word) :
    Answers s (s.hostAccess (.write32 a v)) (Accepted s (.write32 a v)) := by
  rw [accepted_write32_iff]
  by_cases hp : s.pend = none
  · by_cases hr : ∃ r, regAt a.toNat = some r
    · obtain ⟨r, hr⟩ := hr
      have htakes : (s.pend = none ∧ ∃ r', regAt a.toNat = some r' ∧ s.takes v r') ↔ s.takes v r := by simp [hp, hr]
      rw [hostAccess_write32_reg v hp hr, htakes]
      exact writeReg_answers s r v
    · rw [hostAccess_write32_of_no_reg hr]
      exact .refused fun ⟨_, r, hr', _⟩ => hr ⟨r, hr'⟩
  · rw [hostAccess_write32_of_busy a v hp]
    exact .refused fun ⟨hp', _⟩ => hp hp'

theorem read32_answers (s : State) (a : Word) : Answers s (s.hostAccess (.read32 a)) (Accepted s (.read32 a)) := by
  have hacc : Accepted s (.read32 a) ↔ ∃ r, regAt a.toNat = some r := (regAt_isSome_iff a.toNat).symm
  rw [hacc]
  by_cases hr : ∃ r, regAt a.toNat = some r
  · obtain ⟨r, hreg⟩ := hr
    obtain ⟨v, d, hv⟩ := readReg_eq s r
    rw [hostAccess_read32_reg hreg, hv]
    exact .ok ⟨r, hreg⟩ rfl Response.noConfusion
  · rw [hostAccess_read32_of_no_reg hr]
    exact .refused hr

theorem byteAccess_answers (hd : s.bitbufDepth.toNat ≤ Config.bitbufLimit) (a : Word) (b : Byte) :
    Answers s (s.hostAccess (.read8 a)) (Accepted s (.read8 a)) ∧
    Answers s (s.hostAccess (.write8 a b)) (Accepted s (.write8 a b)) := by
  rw [Accepted, Accepted, ← isMemory_regionAt_iff hd]
  by_cases h : s.pend = none ∧ (s.regionAt a).isMemory
  · have ⟨hp, hm⟩ := h
    rw [hostAccess_read8_memory hp rfl hm, hostAccess_write8_memory b hp rfl hm]
    exact ⟨.ok h rfl Response.noConfusion, .ok h (by cases s.regionAt a <;> rfl) Response.noConfusion⟩
  · obtain ⟨hread, hwrite⟩ := hostAccess_byte_refused b h
    rw [hread, hwrite]
    exact ⟨.refused h, .refused h⟩

/-- Every access is a bus error exactly when it is not accepted, and then has no effect (20_memory.md R57). -/
theorem hostAccess_answers (hd : s.bitbufDepth.toNat ≤ Config.bitbufLimit) (x : Access) :
    Answers s (s.hostAccess x) (Accepted s x) := by
  cases x with
  | read32 a => exact read32_answers s a
  | write32 a v => exact write32_answers s a v
  | read8 a => exact (byteAccess_answers hd a 0#8).1
  | write8 a b => exact (byteAccess_answers hd a b).2

/-! ### The memory windows while no command is in flight -/

/-- A Read8 of a memory element gives it and has no effect. -/
theorem step_read8_memory {u : State} {g : Region} (h : HostNext s (.read8 a) u) (hp : s.pend = none)
    (hg : s.regionAt a = g) (hm : g.isMemory) : step s = .next (u.respond (.data8 (s.elementView g))) := by
  obtain ⟨rest, rfl, hstep⟩ := hostNext_dest h
  have hview : State.elementView { s with agenda := rest } g = s.elementView g := by cases g <;> rfl
  rw [hstep, hostAccess_read8_memory (s := { s with agenda := rest }) hp hg hm, hview]

/-- A Write8 to a memory element stores it. -/
theorem step_write8_memory {u : State} {b : Byte} {g : Region} (h : HostNext s (.write8 a b) u) (hp : s.pend = none)
    (hg : s.regionAt a = g) (hm : g.isMemory) : step s = .next ((u.setElement b g).respond .written) := by
  obtain ⟨rest, rfl, hstep⟩ := hostNext_dest h
  rw [hstep, hostAccess_write8_memory (s := { s with agenda := rest }) b hp hg hm]

end Accesses

/-! ### The obligations -/

/-- Settles O31: the bits from the length of the stored sequence on stay, and the rest is a field no write of it names. -/
theorem frEncBcRdFrame : Obligations.FrEncBcRdFrame := by
  intro i hi s t h
  obtain ⟨bs, v, hlen, rfl⟩ := exec_bitStorer hi h
  have hc := exec_completes h
  refine ⟨constantsSame_of_completes hc, ownSame_of_completes hc, rfl, rfl, rfl, fun _ => rfl, fun _ => rfl, ?_⟩
  rintro n rfl k hk
  exact bit_writeBits_of_le s (hlen.trans_le hk)

/-- Settles O32, by the two answers of `parse`; on success as many bytes are stored as the length says. -/
theorem frDecDecodeFrame : Obligations.FrDecDecodeFrame := by
  intro i hi s t h
  have hc := exec_completes h
  cases (exec_parser hi s).symm.trans h
  obtain ⟨hbitlen, hcap, hcarrier, hbitbuf⟩ := acceptParsed_frame s (parse s.markerBits (decodedBits i s))
  refine ⟨constantsSame_of_completes hc, ownSame_of_completes hc, hbitlen, hcap, pend_of_completes hc, hcarrier,
    hbitbuf, fun n q hq => ?_, fun e he => ?_⟩
  · obtain ⟨-, -, hlen, -⟩ := parse_ok hq
    rw [hq, acceptParsed_finish]
    exact ⟨rfl, fun j hj => payloadByte_writePayload_of_le s (hlen.trans_le hj)⟩
  · rw [he, acceptParsed_raise]
    exact ⟨rfl, rfl, fun _ => rfl⟩

/-- Settles O33: either the error is reported and CARRIER stays, or LSBs of the first carrier bytes are replaced. -/
theorem bcWrEncodeFrame : Obligations.BcWrEncodeFrame := by
  intro i hi s t h
  have hc := exec_completes h
  obtain ⟨hupper, -⟩ := carrierByte_of_completes hc
  have hconst := constantsSame_of_completes hc
  have hown := ownSame_of_completes hc
  rcases exec_lsbStorer hi h with ⟨e, rfl⟩ | ⟨bs, hlen, rfl⟩
  · exact ⟨hconst, hown, rfl, rfl, rfl, rfl, fun _ => rfl, fun _ => rfl, hupper, fun _ _ _ _ => rfl, fun _ _ => rfl⟩
  · refine ⟨hconst, hown, rfl, rfl, rfl, rfl, fun _ => rfl, fun _ => rfl, hupper, ?_, fun he => absurd rfl he⟩
    rintro n rfl x hx
    exact carrierByte_putLsbs_of_le s (hlen.trans_le hx)

/-- Settles O34, by the ends of a command. -/
theorem engineKeepsCarrierUpperBits : Obligations.EngineKeepsCarrierUpperBits := by
  intro i s t h
  have hc := exec_completes h
  obtain ⟨-, -, -, hclen⟩ := constantsSame_of_completes hc
  exact ⟨hclen, carrierByte_of_completes hc⟩

/-- Settles O35: every command keeps the agreement `LsbAgree`, under which the results differ in CARRIER alone. -/
theorem commandsReadOnlyCarrierLsbs : Obligations.CommandsReadOnlyCarrierLsbs := by
  intro i s c h
  have hagree : LsbAgree s { s with carrier := c } := ⟨⟨c, rfl⟩, h⟩
  obtain ⟨t, t', ht, ht', ⟨c', rfl⟩, hlsbs⟩ := hagree.exec i
  obtain ⟨-, -, -, hclen⟩ := constantsSame_of_completes (exec_completes ht)
  exact ⟨t, _, ht, ht', rfl, rfl, rfl, rfl, rfl, rfl, fun k hk => hlsbs k (hclen ▸ hk)⟩

/-- Settles O37, by the answer to each access; the turn taken does not change what is accepted. -/
theorem busErrorsExactAndWithoutEffect : Obligations.BusErrorsExactAndWithoutEffect := by
  intro s x u hparams hn
  obtain ⟨-, -, -, hd⟩ := hparams
  obtain ⟨rest, rfl, hstep⟩ := hostNext_dest hn
  have hacc : Accepted { s with agenda := rest } x ↔ Accepted s x := by cases x <;> rfl
  obtain ⟨r, hresp, hiff, heff⟩ := hostAccess_answers (s := { s with agenda := rest }) hd x
  exact ⟨_, r, hstep, hresp, hiff.trans (not_congr hacc), heff⟩

/-- Settles O41: each address names one element, which a Read8 shows and a Write8 stores. -/
theorem memoryWindows : Obligations.MemoryWindows := by
  have hnat {n : Nat} (h : n < 2 ^ 32) : (BitVec.ofNat 32 n).toNat = n :=
    (BitVec.toNat_ofNat n 32).trans (Nat.mod_eq_of_lt h)
  refine ⟨fun s u j hp hj => ?_, fun s u k hparams hp hk => ?_, fun s u i hparams hp hi => ?_⟩
  · have hg : s.regionAt (BitVec.ofNat 32 (0x00010000 + j)) = .payload j :=
      regionAt_payload_iff.mpr ⟨hj, hnat (by omega)⟩
    refine ⟨fun h => step_read8_memory h hp hg trivial, fun v h => ⟨_, step_write8_memory h hp hg trivial, rfl, ?_⟩⟩
    obtain ⟨rest, rfl, -⟩ := hostNext_dest h
    exact payloadByte_setPayloadByte s j v
  · obtain ⟨-, -, -, hd⟩ := hparams
    have hg : s.regionAt (BitVec.ofNat 32 (0x01000000 + k)) = .bitbuf k :=
      (regionAt_bitbuf_iff hd).mpr ⟨hk, hnat (by unfold Config.bitbufLimit at hd; omega)⟩
    refine ⟨fun h => step_read8_memory h hp hg trivial, fun v h => ⟨_, step_write8_memory h hp hg trivial, rfl, ?_⟩⟩
    obtain ⟨rest, rfl, -⟩ := hostNext_dest h
    exact bit_setBit s k _
  · obtain ⟨-, hmax, -⟩ := hparams
    have hg : s.regionAt (BitVec.ofNat 32 (0x80000000 + i)) = .carrier i :=
      regionAt_carrier_iff.mpr ⟨hi, hnat (by unfold Config.carrierLimit at hmax; omega)⟩
    refine ⟨fun h => step_read8_memory h hp hg trivial, fun v h => ⟨_, step_write8_memory h hp hg trivial, rfl, ?_⟩⟩
    obtain ⟨rest, rfl, -⟩ := hostNext_dest h
    exact carrierByte_setCarrierByte s i v

/-- Settles O30: NOP ends with `finish` alone, CAPACITY with CAP written before it. -/
theorem nopCapacityFrame : Obligations.NopCapacityFrame := by
  intro i hi s t h
  have hc := exec_completes h
  have hconst := constantsSame_of_completes hc
  have hown := ownSame_of_completes hc
  simp only [List.mem_cons, List.not_mem_nil, or_false] at hi
  rcases hi with rfl | rfl
  · cases (exec_nop s).symm.trans h
    exact ⟨hconst, hown, rfl, rfl, fun _ => rfl, fun _ => rfl, fun _ => rfl, fun _ => rfl, rfl⟩
  · cases (exec_capacity s).symm.trans h
    exact ⟨hconst, hown, rfl, rfl, Instr.noConfusion, fun _ => rfl, fun _ => rfl, fun _ => rfl, rfl⟩

/-- Settles O42, since a read adds a response and at most a draw. -/
theorem readsHaveNoSideEffect : Obligations.ReadsHaveNoSideEffect := by
  intro s u a h
  obtain ⟨x, hx, hn⟩ : ∃ x, (x = .read32 a ∨ x = .read8 a) ∧ HostNext s x u := by
    rcases h with h | h
    · exact ⟨_, .inl rfl, h⟩
    · exact ⟨_, .inr rfl, h⟩
  obtain ⟨r, d, he⟩ := hostAccess_of_read (s := u) hx
  exact ⟨_, (step_of_hostNext hn).trans (congrArg _ he), rfl⟩

end Sys2Proof.Machine

/-!
Proofs of the statements about the encoding of commands (30_encoding.md). A word decodes to a command exactly when it is
the command's own word; from this the map of R81, the well-formed words, and the illegal words of R82 follow.
-/

namespace Sys2Proof

/-! ### A command's own word -/

section Words

variable {w : Word} {i : Instr}

theorem wordForm (i : Instr) : Laws.WordForm.Statement i := by
  cases i
  exacts [Laws.WordForm.nop, Laws.WordForm.frEnc, Laws.WordForm.frDec, Laws.WordForm.bcWr, Laws.WordForm.bcRd,
    Laws.WordForm.capacity, Laws.WordForm.encode, Laws.WordForm.decode]

@[simp] theorem decodeCommand_encodeCommand (i : Instr) : decodeCommand (encodeCommand i) = .ok i := by
  obtain ⟨-, -, -, -, h⟩ := wordForm i
  exact h

@[simp] theorem wordWellFormed_encodeCommand (i : Instr) : wordWellFormed (encodeCommand i) = true := by
  obtain ⟨-, h, -⟩ := wordForm i
  exact h

theorem decodeCommand_eq_ok_iff : decodeCommand w = .ok i ↔ encodeCommand i = w := by
  refine ⟨encodeCommand_of_decodeCommand, ?_⟩
  rintro rfl
  exact decodeCommand_encodeCommand i

theorem decodeCommand_eq_error_iff : (∃ e, decodeCommand w = .error e) ↔ ∀ i, decodeCommand w ≠ .ok i := by
  cases decodeCommand w <;> simp

theorem exists_opcodeOf_of_opcodeAssigned (h : opcodeAssigned w = true) : ∃ i, opcodeOf i = opField w := by
  simp only [opcodeAssigned, List.contains_iff_mem, List.mem_cons, List.not_mem_nil, or_false] at h
  rcases h with h | h | h | h | h | h | h | h
  exacts [⟨.nop, h.symm⟩, ⟨.frEnc, h.symm⟩, ⟨.frDec, h.symm⟩, ⟨.bcWr, h.symm⟩, ⟨.bcRd, h.symm⟩,
    ⟨.capacity, h.symm⟩, ⟨.encode, h.symm⟩, ⟨.decode, h.symm⟩]

/-- The well-formed words are the commands' own: a clear reserved field above an assigned opcode. -/
theorem wordWellFormed_iff : wordWellFormed w = true ↔ ∃ i, encodeCommand i = w := by
  refine ⟨fun h => ?_, ?_⟩
  · obtain ⟨hrsv, hop⟩ := Bool.and_eq_true_iff.mp h
    obtain ⟨i, hi⟩ := exists_opcodeOf_of_opcodeAssigned hop
    have hzero : rsvField w = 0#24 := eq_of_beq hrsv
    refine ⟨i, ?_⟩
    calc encodeCommand i = rsvField w ++ opField w := by rw [encodeCommand, hi, hzero]
      _ = w := rsvField_append_opField w
  · rintro ⟨i, rfl⟩
    exact wordWellFormed_encodeCommand i

end Words

end Sys2Proof

namespace Sys2Proof.Machine

open Claims

/-! ### The map of R81 and the illegal words of R82 -/

section Map

variable {w : Word} {i : Instr}

theorem encodeCommand_mem_legalWords (i : Instr) : (encodeCommand i, i) ∈ legalWords := by
  cases i <;> decide

theorem encodeCommand_of_mem_legalWords : ∀ p ∈ legalWords, encodeCommand p.2 = p.1 := by decide

theorem mem_legalWords_iff : (w, i) ∈ legalWords ↔ encodeCommand i = w := by
  refine ⟨encodeCommand_of_mem_legalWords (w, i), ?_⟩
  rintro rfl
  exact encodeCommand_mem_legalWords i

/-- The ranges of R82 are the words outside the map of R81. -/
theorem illegalWord_iff : IllegalWord w ↔ w ∉ legalWords.map Prod.fst := by
  simp only [IllegalWord, legalWords, List.map_cons, List.map_nil, List.mem_cons, List.not_mem_nil, or_false,
    BitVec.toNat_eq, BitVec.toNat_ofNat]
  omega

/-- Decoding fails exactly on the words outside the map. -/
theorem decodeCommand_eq_error_iff_not_mem :
    (∃ e, decodeCommand w = .error e) ↔ w ∉ legalWords.map Prod.fst := by
  have hmem : w ∈ legalWords.map Prod.fst ↔ ∃ i, (w, i) ∈ legalWords := by simp
  rw [decodeCommand_eq_error_iff, hmem, not_exists]
  exact forall_congr' fun i => not_congr (decodeCommand_eq_ok_iff.trans mem_legalWords_iff.symm)

/-- Decoding fails exactly on the illegal words (30_encoding.md R82). -/
theorem decodeCommand_eq_error_iff_illegalWord : (∃ e, decodeCommand w = .error e) ↔ IllegalWord w :=
  decodeCommand_eq_error_iff_not_mem.trans illegalWord_iff.symm

end Map

/-! ### The obligations -/

/-- Settles O3: a word decodes to a command exactly when it is the command's own, and these words are the well-formed
ones. -/
theorem decodeEncodeAgree : Obligations.DecodeEncodeAgree := by
  refine ⟨fun i _ => decodeCommand_encodeCommand i, fun w i => encodeCommand_of_decodeCommand, fun w => ?_⟩
  rw [wordWellFormed_iff]
  exact exists_congr fun i => decodeCommand_eq_ok_iff.symm

/-- Settles O2: the map lists each command with its own word. -/
theorem legalWordsAreTheEight : Obligations.LegalWordsAreTheEight :=
  ⟨fun _ _ => decodeCommand_eq_ok_iff.trans mem_legalWords_iff.symm, fun _ => decodeCommand_eq_error_iff_not_mem⟩

/-- Settles O5: the CMD port takes any word at issue, and at completion decoding fails on an illegal one. -/
theorem illegalWordCompletesWithIllegalCommand : Obligations.IllegalWordCompletesWithIllegalCommand := by
  refine ⟨fun s u w _ hn hp => ?_, fun s u w hw hn hp => ?_⟩
  · obtain ⟨hissue, -⟩ := cmdPort
    obtain ⟨t, hstep, rfl, -⟩ := hissue s u w hn hp
    exact ⟨_, hstep, rfl, rfl⟩
  · obtain ⟨e, he⟩ := decodeCommand_eq_error_iff_illegalWord.mpr hw
    obtain ⟨rest, rfl, hstep⟩ := engineNext_dest hn
    exact ⟨hstep.trans (engineTurn_of_illegal hp he), State.rejectWord_status _⟩

/-- Settles O4, by evaluating the decoder on each word. -/
theorem sampleWordsDecode : Obligations.SampleWordsDecode := ⟨rfl, rfl, rfl, rfl, rfl, rfl⟩

end Sys2Proof.Machine

/-!
Proofs of the statements about the Framer (40_framer.md). The statements name bits by a function, `parse` takes a list:
`BeginsWith` ties the two, so that what `parse` answers is said once for a plain sequence and for the bits that a command
decodes.
-/

namespace Sys2Proof.Machine

open Claims

/-! ### The bits that a sequence holds -/

/-- The bits `b` begin with the sequence `s`. -/
def BeginsWith (b : Nat → Bool) (s : List Bool) : Prop := ∀ k, k < s.length → s[k]? = some (b k)

section Sequences

variable {b : Nat → Bool} {s : List Bool}

theorem beginsWith_getD (s : List Bool) : BeginsWith (fun k => s[k]?.getD false) s := fun k hk => by
  simp [List.getElem?_eq_getElem hk]

theorem beginsWith_bits (s : State) (n : Nat) : BeginsWith s.bit (s.bits n) := fun k hk => by
  rw [getElem?_bits, if_pos (by simpa using hk)]

theorem beginsWith_writeBits (s : State) (bs : List Bool) : BeginsWith (s.writeBits bs).bit bs := fun k hk => by
  rw [bit_writeBits, List.getElem?_eq_getElem hk, Option.getD_some]

theorem BeginsWith.of_append {x : List Bool} (h : BeginsWith b (s ++ x)) : BeginsWith b s := fun k hk => by
  rw [← List.getElem?_append_left hk, h k (by simp; omega)]

theorem BeginsWith.take (h : BeginsWith b s) (n : Nat) : BeginsWith b (s.take n) :=
  BeginsWith.of_append (x := s.drop n) (by rwa [List.take_append_drop])

/-- A sequence is the MSB-first form of the value it spells, and of no other. -/
theorem eq_bitsMsbFirst_iff {w : Nat} (hw : s.length = w) (v : BitVec w) :
    s = bitsMsbFirst v ↔ BitVec.ofNat w (valueMsbFirst s) = v := by
  subst hw
  refine ⟨fun h => ?_, ?_⟩
  · rw [congrArg valueMsbFirst h, valueMsbFirst_bitsMsbFirst, BitVec.ofNat_toNat, BitVec.setWidth_eq]
  · rintro rfl
    exact (bitsMsbFirst_valueMsbFirst s).symm

/-- A field of a sequence, bit by bit. -/
theorem BeginsWith.slice_eq_iff (h : BeginsWith b s) {w i : Nat} (hl : i + w ≤ s.length) (v : BitVec w) :
    slice s i (i + w) = bitsMsbFirst v ↔ ∀ k, k < w → b (i + k) = v.getLsbD (w - 1 - k) := by
  have hbit (k : Nat) : (slice s i (i + w))[k]? = if k < w then some (b (i + k)) else none := by
    rw [getElem?_slice, Nat.add_sub_cancel_left]
    exact ite_congr rfl (fun hk => h _ (by omega)) fun _ => rfl
  simp only [List.ext_getElem?_iff, hbit, getElem?_bitsMsbFirst]
  refine forall_congr' fun k => ?_
  by_cases hk : k < w <;> simp [hk]

theorem BeginsWith.markerAt_iff (h : BeginsWith b s) (hl : 32 ≤ s.length) (m : Word) :
    MarkerAt b m ↔ slice s 0 32 = bitsMsbFirst m := by
  simpa [MarkerAt] using (h.slice_eq_iff (i := 0) (by omega) m).symm

theorem BeginsWith.lengthAt_iff (h : BeginsWith b s) (hl : 48 ≤ s.length) (n : BitVec 16) :
    LengthAt b n ↔ slice s 32 48 = bitsMsbFirst n := (h.slice_eq_iff (i := 32) hl n).symm

theorem BeginsWith.payloadAt_iff (h : BeginsWith b s) {n : Nat} (hl : 48 + 8 * n ≤ s.length) (p : Nat → Byte) :
    PayloadAt b n p ↔ ∀ j, j < n → slice s (48 + 8 * j) (48 + 8 * j + 8) = bitsMsbFirst (p j) :=
  forall₂_congr fun _ hj => (h.slice_eq_iff (by omega) _).symm

theorem payloadAt_congr {n : Nat} {p p' : Nat → Byte} (h : ∀ j, j < n → p j = p' j) :
    PayloadAt b n p ↔ PayloadAt b n p' :=
  forall₂_congr fun j hj => by rw [h j hj]

/-! ### A frame's elements (40_framer.md R100) -/

theorem length_frame_word (m : Word) (n : BitVec 16) (p : List Byte) :
    (frame (bitsMsbFirst m) n p).length = 48 + 8 * p.length := by
  rw [length_frame, length_bitsMsbFirst]

/-- Bits that begin with a frame hold its marker, its length and its payload. -/
theorem BeginsWith.frame_layout {m : Word} {n : BitVec 16} {p : List Byte}
    (h : BeginsWith b s) (hs : s = frame (bitsMsbFirst m) n p) :
    MarkerAt b m ∧ LengthAt b n ∧ PayloadAt b p.length fun j => p[j]?.getD 0#8 := by
  subst hs
  have hlen := length_frame_word m n p
  refine ⟨(h.markerAt_iff (by omega) m).mpr ?_, (h.lengthAt_iff (by omega) n).mpr ?_,
    (h.payloadAt_iff (by omega) _).mpr fun j hj => ?_⟩
  · rw [frame, slice_append_of_ge _ _ (by simp), slice_append_of_ge _ _ (by simp)]
    simp [slice]
  · rw [frame, slice_append_of_ge _ _ (by simp), slice_append_of_le _ _ (by simp)]
    simp [slice]
  · rw [frame, slice_append_of_le _ _ (by simp)]
    simp only [List.length_append, length_bitsMsbFirst, Nat.add_sub_cancel_left, Nat.add_assoc]
    rw [slice_flatMap_bits p j hj, List.getElem?_eq_getElem hj, Option.getD_some]

/-! ### What `parse` answers (40_framer.md R102) -/

theorem parse_of_short (mk : List Bool) (hl : s.length < 48) : parse mk s = .error .malformedStream := by
  rw [parse_eq, if_pos hl]

section Parse

variable {m : Word} {n : BitVec 16} (h : BeginsWith b s)
include h

theorem BeginsWith.parse_of_no_marker (hl : 48 ≤ s.length) (hm : ¬ MarkerAt b m) :
    parse (bitsMsbFirst m) s = .error .notSteganographic := by
  rw [parse_eq, if_neg (by omega), if_pos (mt (h.markerAt_iff (by omega) m).mpr hm)]

/-- The length field announces the length it holds. -/
theorem BeginsWith.announced_eq (hl : 48 ≤ s.length) (hn : LengthAt b n) : announced s = n.toNat := by
  rw [announced, (h.lengthAt_iff hl n).mp hn, valueMsbFirst_bitsMsbFirst]

theorem BeginsWith.parse_of_truncated (hl : 48 ≤ s.length) (hm : MarkerAt b m) (hn : LengthAt b n)
    (ht : s.length < 48 + 8 * n.toNat) : parse (bitsMsbFirst m) s = .error .truncatedPayload := by
  have hmark : slice s 0 32 = bitsMsbFirst m := (h.markerAt_iff (by omega) m).mp hm
  rw [parse_eq, if_neg (by omega), if_neg (not_not.mpr hmark), h.announced_eq hl hn, if_pos ht]

/-- The bytes carried are those the bits hold, and no others. -/
theorem BeginsWith.carried_eq_iff {q : List Byte} (hq : q.length = announced s)
    (hl : 48 + 8 * announced s ≤ s.length) :
    carried s = q ↔ PayloadAt b (announced s) fun j => q[j]?.getD 0#8 := by
  rw [h.payloadAt_iff hl, List.ext_getElem?_iff]
  refine forall_congr' fun j => ?_
  by_cases hj : j < announced s
  · have hfield : (slice s (48 + 8 * j) (48 + 8 * j + 8)).length = 8 := by rw [length_slice]; omega
    have hjq : j < q.length := by omega
    rw [List.getElem?_eq_getElem hjq, Option.getD_some, eq_bitsMsbFirst_iff hfield]
    simp [carried, hj]
  · have hcar : (carried s).length ≤ j := by rw [length_carried]; omega
    rw [List.getElem?_eq_none hcar, List.getElem?_eq_none (by omega)]
    simp [hj]

/-- `parse` accepts exactly the sequences that hold a whole frame, and answers its length and payload. -/
theorem BeginsWith.parse_eq_ok_iff {q : List Byte} :
    parse (bitsMsbFirst m) s = .ok (n, q) ↔
      48 + 8 * n.toNat ≤ s.length ∧ MarkerAt b m ∧ LengthAt b n ∧ q.length = n.toNat ∧
        PayloadAt b n.toNat fun j => q[j]?.getD 0#8 := by
  constructor
  · intro hp
    obtain ⟨hn, hcar, hq, hl, hm⟩ := parse_ok hp
    have hfield : BitVec.ofNat 16 (announced s) = n := by rw [← hn, BitVec.ofNat_toNat, BitVec.setWidth_eq]
    refine ⟨hl, (h.markerAt_iff (by omega) m).mpr hm, (h.lengthAt_iff (by omega) n).mpr ?_, hq, ?_⟩
    · exact (eq_bitsMsbFirst_iff (by rw [length_slice]; omega) n).mpr hfield
    · rw [hn] at hq hl ⊢
      exact (h.carried_eq_iff hq hl).mp hcar.symm
  · rintro ⟨hl, hm, hn, hq, hp⟩
    have hann := h.announced_eq (by omega) hn
    have hmark : slice s 0 32 = bitsMsbFirst m := (h.markerAt_iff (by omega) m).mp hm
    have hcar : carried s = q := by
      rw [← hann] at hl hq hp
      exact (h.carried_eq_iff hq hl).mpr hp
    rw [parse_eq, if_neg (by omega), if_neg (not_not.mpr hmark), hann, if_neg (by omega), hcar, BitVec.ofNat_toNat,
      BitVec.setWidth_eq]

theorem BeginsWith.exists_parse_of_whole (hm : MarkerAt b m) (hn : LengthAt b n)
    (hl : 48 + 8 * n.toNat ≤ s.length) : ∃ q, parse (bitsMsbFirst m) s = .ok (n, q) := by
  have hann := h.announced_eq (by omega) hn
  have hp := (h.carried_eq_iff (length_carried s) (by omega)).mp rfl
  exact ⟨carried s, h.parse_eq_ok_iff.mpr ⟨hl, hm, hn, by rw [length_carried, hann], hann ▸ hp⟩⟩

end Parse

/-- Excess bits after a frame are ignored (40_framer.md R104 (a)). -/
theorem parse_frame_append {m : Word} {n : BitVec 16} {p : List Byte} (x : List Bool) (hp : p.length = n.toNat) :
    parse (bitsMsbFirst m) (frame (bitsMsbFirst m) n p ++ x) = .ok (n, p) := by
  have h := beginsWith_getD (frame (bitsMsbFirst m) n p ++ x)
  obtain ⟨hm, hn, hpay⟩ := h.of_append.frame_layout rfl
  refine h.parse_eq_ok_iff.mpr ⟨?_, hm, hn, hp, hp ▸ hpay⟩
  rw [List.length_append, length_frame_word]
  omega

end Sequences

/-! ### The commands -/

/-- FR_ENC stores the frame of LEN and PAYLOAD, and its length (40_framer.md R101). -/
theorem exec_frEnc_stores (s : State) : ∃ F v, F = frame s.markerBits s.len (s.payloadBytes s.len.toNat) ∧
    F.length = 48 + 8 * s.len.toNat ∧ v.toNat = F.length ∧
    exec .frEnc s = .next ((s.writeBits F).setBitlen v).finish := by
  have hmax : frameBits s.len.toNat < 2 ^ 32 := (frameBits_le_frameMaxBits s.len).trans_lt (by decide)
  refine ⟨_, _, rfl, length_frame_operands s, ?_, exec_frEnc s⟩
  rw [length_frame_operands, BitVec.toNat_ofNat, Nat.mod_eq_of_lt hmax]

section Decodes

variable {i : Instr} {L : State → Nat} {b : State → Nat → Bool} (hi : i ∈ [Instr.frDec, Instr.decode])
  (hlen : ∀ s, (decodedBits i s).length = L s) (hbits : ∀ s, BeginsWith (b s) (decodedBits i s))
include hi hlen hbits

/-- A decoding command raises the error that `parse` answers on its bits. -/
theorem decodeFails_of_beginsWith : DecodeFails i L b := by
  have hraise (s : State) (e : ErrCode) (hp : parse s.markerBits (decodedBits i s) = .error e) :
      exec i s = .next (failed s e) := by
    rw [exec_parser hi, acceptParsed_error s hp, failed]
  refine ⟨fun s hl => hraise s _ (parse_of_short _ ?_), fun s hl hm => hraise s _ ((hbits s).parse_of_no_marker ?_ hm),
    fun s n hl hm hn ht => hraise s _ ((hbits s).parse_of_truncated ?_ hm hn ?_)⟩
  all_goals rwa [hlen]

/-- A decoding command stores what `parse` answers on a whole frame. -/
theorem decodeSucceeds_of_beginsWith : DecodeSucceeds i L b := by
  intro s n hm hn hl
  obtain ⟨q, hp⟩ := (hbits s).exists_parse_of_whole hm hn (by rwa [hlen])
  obtain ⟨-, -, -, hq, hpay⟩ := (hbits s).parse_eq_ok_iff.mp hp
  have hexec : exec i s = .next ((s.writePayload q).setLen n).finish := by
    rw [exec_parser hi, State.markerBits, hp, acceptParsed_finish]
  have hc := exec_completes hexec
  refine ⟨_, hexec, rfl, rfl, rfl, (payloadAt_congr fun j hj => ?_).mp hpay,
    fun j hj => payloadByte_writePayload_of_le s (hq.trans_le hj), constantsSame_of_completes hc,
    ownSame_of_completes hc, rfl, rfl, fun _ => rfl, fun _ => rfl⟩
  refine Eq.trans ?_ (payloadByte_writePayload s q j).symm
  rw [List.getElem?_eq_getElem (hq ▸ hj), Option.getD_some, Option.getD_some]

end Decodes

/-! ### The obligations -/

/-- Settles O8: (a) and (d) since `parse` accepts exactly the whole frames, (b) and (c) by the first two checks. -/
theorem frameParseLaws : Obligations.FrameParseLaws := by
  refine ⟨fun m n p x hp => parse_frame_append x hp, fun m s hl hne => ?_, fun m s hl => parse_of_short _ hl,
    fun m s n q hq => ?_⟩
  · have h := beginsWith_getD s
    exact h.parse_of_no_marker hl (mt (h.markerAt_iff (by omega) m).mp hne)
  · have h := beginsWith_getD s
    obtain ⟨hl, hframe⟩ := h.parse_eq_ok_iff.mp hq
    refine ⟨hl, (h.take _).parse_eq_ok_iff.mpr ⟨?_, hframe⟩⟩
    rw [List.length_take, min_eq_left hl]

/-- Settles O6, from the three parts of a frame. -/
theorem frameLayout : Obligations.FrameLayout := by
  intro m n p hp
  refine ⟨by rw [length_frame_word, hp], ?_⟩
  rw [← hp]
  exact (beginsWith_getD _).frame_layout rfl

/-- Settles O7, by the checks in order. -/
theorem parseAnswers : Obligations.ParseAnswers := by
  intro m s
  have h := beginsWith_getD s
  refine ⟨parse_of_short _, h.parse_of_no_marker, fun n hl hm hn => ⟨h.parse_of_truncated hl hm hn, fun hw => ?_⟩⟩
  obtain ⟨q, hq⟩ := h.exists_parse_of_whole hm hn hw
  obtain ⟨-, -, -, hpay⟩ := h.parse_eq_ok_iff.mp hq
  exact ⟨q, hq, hpay⟩

/-- Settles O9: BITBUF begins with the frame that was written. -/
theorem frEncWritesTheFrame : Obligations.FrEncWritesTheFrame := by
  refine ⟨by decide, fun s hparams => ?_, fun s => ?_⟩
  · obtain ⟨-, -, hd, -⟩ := hparams
    exact (frameBits_le_frameMaxBits s.len).trans hd
  · obtain ⟨F, v, hF, hlen, hv, hexec⟩ := exec_frEnc_stores s
    have hc := exec_completes hexec
    obtain ⟨hm, hn, hp⟩ := (beginsWith_writeBits s F).frame_layout hF
    have hbyte (j : Nat) (hj : j < s.len.toNat) :
        (s.payloadBytes s.len.toNat)[j]?.getD 0#8 = s.payloadByte j := by
      rw [getElem?_payloadBytes, if_pos hj, Option.getD_some]
    rw [length_payloadBytes, payloadAt_congr hbyte] at hp
    exact ⟨_, hexec, rfl, rfl, hv.trans hlen, hm, hn, hp, fun k hk => bit_writeBits_of_le s (hlen.trans_le hk),
      constantsSame_of_completes hc, ownSame_of_completes hc, rfl, rfl, fun _ => rfl, fun _ => rfl⟩

/-- Settles O10: FR_DEC parses B[0..BITLEN-1]. -/
theorem frDecParsesBitbuf : Obligations.FrDecParsesBitbuf := by
  have hlen (s : State) : (decodedBits .frDec s).length = s.bitlen.toNat := length_bits s _
  have hbits (s : State) : BeginsWith s.bit (decodedBits .frDec s) := beginsWith_bits s _
  exact ⟨by decide, decodeSucceeds_of_beginsWith (by decide) hlen hbits,
    decodeFails_of_beginsWith (by decide) hlen hbits⟩

/-- Settles O11: FR_DEC parses the very frame that FR_ENC wrote, and stores the bytes that PAYLOAD holds. -/
theorem frDecInvertsFrEnc : Obligations.FrDecInvertsFrEnc := by
  intro s
  obtain ⟨F, v, hF, -, hv, hexec⟩ := exec_frEnc_stores s
  have hparse : parse s.markerBits F = .ok (s.len, s.payloadBytes s.len.toNat) := by
    rw [hF, ← List.append_nil (frame _ _ _)]
    exact parse_frame_append [] (length_payloadBytes s _)
  refine ⟨_, _, hexec, exec_frDec _, ?_⟩
  rw [State.finish_bitlen, State.setBitlen_bitlen, hv, State.finish_bits, State.setBitlen_bits, bits_writeBits,
    State.finish_markerBits, State.setBitlen_markerBits, State.writeBits_markerBits, hparse, acceptParsed_finish]
  refine ⟨rfl, rfl, fun j => ?_⟩
  rw [State.finish_payloadByte, State.setLen_payloadByte, payloadByte_writePayload, getElem?_payloadBytes]
  split <;> rfl

end Sys2Proof.Machine

/-!
Proofs of the statements about the Bit Channel (41_bit_channel.md). First what `parse` makes of bits past the longest
frame, and the LSBs as operands; then the two commands, and the laws from what the commands do.
-/

namespace Sys2Proof.Machine

open Claims

/-! ### Bits past the longest frame -/

theorem announced_append {a : List Bool} (b : List Bool) (h : 48 ≤ a.length) : announced (a ++ b) = announced a := by
  rw [announced, slice_append_of_ge a b h, announced]

/-- The bytes announced end within the longest frame, so what follows it does not reach them. -/
theorem carried_append {a : List Bool} (b : List Bool) (h : Config.frameMaxBits ≤ a.length) :
    carried (a ++ b) = carried a := by
  unfold Config.frameMaxBits at h
  have hann := announced_append b (show 48 ≤ a.length by omega)
  have hmax := announced_lt a
  rw [carried, carried, hann]
  refine List.map_congr_left fun j hj => ?_
  have hj' := List.mem_range.mp hj
  rw [slice_append_of_ge a b (by omega)]

/-- `parse` does not see what follows the longest frame: each check answers the same (41_bit_channel.md R123 (c)). -/
theorem parse_append_of_frameMaxBits_le (mk : List Bool) {a : List Bool} (b : List Bool)
    (h : Config.frameMaxBits ≤ a.length) : parse mk (a ++ b) = parse mk a := by
  have hann := announced_append b (le_trans (by decide) h)
  have hcar := carried_append b h
  have hmax := announced_lt a
  unfold Config.frameMaxBits at h
  have hlen : (a ++ b).length = a.length + b.length := List.length_append
  rw [parse_eq, parse_eq, slice_append_of_ge a b (by omega), hann, hcar, if_neg (by omega),
    if_neg (show ¬ (a ++ b).length < 48 + 8 * announced a by omega), if_neg (show ¬ a.length < 48 by omega),
    if_neg (show ¬ a.length < 48 + 8 * announced a by omega)]

/-! ### The LSBs of the carrier -/

theorem lsbPut_eq_and_or (c : Byte) (b : Bool) : lsbPut c b = (c &&& 0xFE#8) ||| (BitVec.ofBool b).setWidth 8 := by
  revert c b; decide

/-- The LSBs that `putLsbs` writes are the bits it is given. -/
theorem carrierByte_putLsbs_of_beginsWith (s : State) {b : Nat → Bool} {bs : List Bool} (h : BeginsWith b bs) {i : Nat}
    (hi : i < bs.length) : (s.putLsbs bs).carrierByte i = lsbPut (s.carrierByte i) (b i) := by
  have hbit : bs[i] = b i := Option.some_inj.mp ((List.getElem?_eq_getElem hi).symm.trans (h i hi))
  rw [carrierByte_putLsbs, dif_pos hi, hbit]

theorem beginsWith_carrierLsbs (s : State) (n : Nat) : BeginsWith (lsbs s) (s.carrierLsbs n) := fun k hk => by
  rw [getElem?_carrierLsbs, if_pos (by simpa using hk), lsbGet, lsbs]

/-- The first carrier LSBs of more are those of fewer. -/
theorem carrierLsbs_eq_append (s : State) {m n : Nat} (h : m ≤ n) :
    s.carrierLsbs n = s.carrierLsbs m ++ (s.carrierLsbs n).drop m := by
  apply List.ext_getElem?
  intro k
  rw [List.getElem?_append, length_carrierLsbs, List.getElem?_drop]
  split
  · rw [getElem?_carrierLsbs, getElem?_carrierLsbs, if_pos (by omega), if_pos (by omega)]
  · rw [Nat.add_sub_cancel' (by omega)]

/-! ### The commands -/

/-- BC_WR stores B[0..BITLEN-1] in the carrier's LSBs (41_bit_channel.md R121). -/
theorem exec_bcWr_stores {s : State} (h : s.bitlen.toNat ≤ s.clen.toNat) :
    ∃ bs, bs.length = s.bitlen.toNat ∧ BeginsWith s.bit bs ∧ exec .bcWr s = .next (s.putLsbs bs).finish :=
  ⟨_, length_bits s _, beginsWith_bits s _, exec_bcWr_fits s h⟩

/-- BC_RD stores the LSBs of C[0..k-1] in BITBUF and k in BITLEN, where k = min(CLEN, BITBUF_DEPTH)
(41_bit_channel.md R122). -/
theorem exec_bcRd_stores (s : State) : ∃ bs v, bs.length = s.bcRdCount ∧ v.toNat = bs.length ∧ BeginsWith (lsbs s) bs ∧
    exec .bcRd s = .next ((s.writeBits bs).setBitlen v).finish := by
  have hcount : s.bcRdCount < 2 ^ 32 := (min_le_left _ _).trans_lt s.clen.isLt
  refine ⟨_, _, length_carrierLsbs s _, ?_, beginsWith_carrierLsbs s _, exec_bcRd s⟩
  rw [length_carrierLsbs, BitVec.toNat_ofNat, Nat.mod_eq_of_lt hcount]

/-! ### The obligations -/

/-- Settles O12, over every byte and bit. -/
theorem lsbPutAndGet : Obligations.LsbPutAndGet := fun c b =>
  ⟨lsbPut_eq_and_or c b, upperBits_lsbPut c b, lsbGet_lsbPut c b, rfl⟩

/-- Settles O13: BC_WR stores LSBs, or raises. -/
theorem bcWrWritesLsbs : Obligations.BcWrWritesLsbs := by
  refine ⟨by decide, fun s hfit => ?_, exec_bcWr_refused⟩
  obtain ⟨bs, hlen, hbs, hexec⟩ := exec_bcWr_stores hfit
  have hc := exec_completes hexec
  exact ⟨_, hexec, rfl, rfl, fun i hi => carrierByte_putLsbs_of_beginsWith s hbs (hi.trans_eq hlen.symm),
    fun i hi => carrierByte_putLsbs_of_le s (hlen.trans_le hi), constantsSame_of_completes hc,
    ownSame_of_completes hc, rfl, rfl, rfl, fun _ => rfl, fun _ => rfl⟩

/-- Settles O14: BITBUF begins with the bits that were written, and these are the LSBs. -/
theorem bcRdReadsLsbs : Obligations.BcRdReadsLsbs := by
  refine ⟨by decide, fun s => ?_⟩
  obtain ⟨bs, v, hlen, hv, hbs, hexec⟩ := exec_bcRd_stores s
  have hc := exec_completes hexec
  have hbit (i : Nat) (hi : i < bs.length) : (s.writeBits bs).bit i = lsbs s i :=
    Option.some_inj.mp ((beginsWith_writeBits s bs i hi).symm.trans (hbs i hi))
  exact ⟨_, hexec, rfl, rfl, hv.trans hlen, fun i hi => hbit i (hi.trans_eq hlen.symm),
    fun i hi => bit_writeBits_of_le s (hlen.trans_le hi), constantsSame_of_completes hc, ownSame_of_completes hc,
    rfl, rfl, fun _ => rfl, fun _ => rfl⟩

/-- Settles O15: (a) and (b) from what BC_WR and BC_RD do, (c) since the bits kept hold the longest frame. -/
theorem bitChannelLaws : Obligations.BitChannelLaws := by
  obtain ⟨-, hwr, -⟩ := bcWrWritesLsbs
  obtain ⟨-, hrd⟩ := bcRdReadsLsbs
  refine ⟨fun s hfit => ?_, fun s hfit => ?_, fun s hparams => ?_⟩
  · obtain ⟨t, hexec, -, -, -, hkept, -⟩ := hwr s hfit
    obtain ⟨hupper, -⟩ := carrierByte_of_completes (exec_completes hexec)
    exact ⟨t, hexec, hupper, hkept⟩
  · obtain ⟨t, hexec, -, -, hput, -, ⟨-, -, hdepth, hclen⟩, -⟩ := hwr s hfit
    refine ⟨t, hexec, fun t' hclen' hdepth' hsame => ?_⟩
    obtain ⟨u, hexec', -, -, -, hbit, -⟩ := hrd t'
    refine ⟨u, hexec', fun i hi => ?_⟩
    have hi' : i < min t'.clen.toNat t'.bitbufDepth.toNat := by
      rw [hclen', hdepth', hclen, hdepth]
      omega
    calc u.bit i = lsbGet (t'.carrierByte i) := hbit i hi'
      _ = lsbGet (lsbPut (s.carrierByte i) (s.bit i)) := by
        rw [hsame i (by rw [hclen]; omega), hput i (by omega)]
      _ = s.bit i := lsbGet_lsbPut _ _
  · obtain ⟨-, -, hframe, -⟩ := hparams
    rcases Nat.le_total s.clen.toNat s.bitbufDepth.toNat with hc | hd
    · rw [min_eq_left hc]
    · rw [min_eq_right hd, carrierLsbs_eq_append s hd, parse_append_of_frameMaxBits_le]
      rwa [length_carrierLsbs]

end Sys2Proof.Machine

/-!
Proofs of the statements about the pipeline commands (42_pipeline.md). First the capacity law and the operands of ENCODE
and DECODE; then what a sequence held in BITBUF hands on to the next command, and the updates that do not reach BITBUF.
-/

namespace Sys2Proof.Machine

open Claims

/-! ### The capacity law -/

/-- `n` bytes fit the available capacity exactly when their frame fits the carrier (42_pipeline.md R142). -/
theorem le_available_iff (n c : Nat) : (n : Int) ≤ available c ↔ frameBits n ≤ c := by
  unfold available frameBits Config.headerBits
  omega

/-! ### The frame in the carrier's LSBs -/

section Carrier

variable {s : State} {b : Nat → Bool}

/-- Bits that begin with the frame of LEN and PAYLOAD hold the marker, LEN and the payload (42_pipeline.md R143). -/
theorem BeginsWith.frame_operands {F : List Bool} (h : BeginsWith b F)
    (hF : F = frame s.markerBits s.len (s.payloadBytes s.len.toNat)) :
    MarkerAt b s.marker ∧ LengthAt b s.len ∧ PayloadAt b s.len.toNat s.payloadByte := by
  obtain ⟨hm, hn, hp⟩ := h.frame_layout hF
  have hbyte (j : Nat) (hj : j < s.len.toNat) :
      (s.payloadBytes s.len.toNat)[j]?.getD 0#8 = s.payloadByte j := by
    rw [getElem?_payloadBytes, if_pos hj, Option.getD_some]
  rw [length_payloadBytes, payloadAt_congr hbyte] at hp
  exact ⟨hm, hn, hp⟩

theorem beginsWith_putLsbs (s : State) (bs : List Bool) : BeginsWith (lsbs (s.putLsbs bs)) bs := fun k hk => by
  rw [lsbs_putLsbs, List.getElem?_eq_getElem hk, Option.getD_some]

/-- ENCODE stores the frame of LEN and PAYLOAD in the carrier's LSBs (42_pipeline.md R143). -/
theorem exec_encode_stores (h : frameBits s.len.toNat ≤ s.clen.toNat) :
    ∃ F, F = frame s.markerBits s.len (s.payloadBytes s.len.toNat) ∧ F.length = 48 + 8 * s.len.toNat ∧
      exec .encode s = .next (s.putLsbs F).finish :=
  ⟨_, rfl, length_frame_operands s, exec_encode_fits s h⟩

/-- `parse` gives back LEN and the payload from the frame and whatever follows it (40_framer.md R104 (a)). -/
theorem parse_frame_operands_append (s : State) (x : List Bool) :
    parse s.markerBits (frame s.markerBits s.len (s.payloadBytes s.len.toNat) ++ x) =
      .ok (s.len, s.payloadBytes s.len.toNat) :=
  parse_frame_append x (length_payloadBytes s _)

theorem carrierLsbs_congr {t : State} {n : Nat} (h : ∀ i, i < n → t.carrierByte i = s.carrierByte i) :
    t.carrierLsbs n = s.carrierLsbs n :=
  congrArg (List.map lsbGet) (Memory.readSeq_congr h)

end Carrier

/-! ### A sequence held in BITBUF -/

section Held

variable (s : State) (bs : List Bool) (v : Word)

/-- What FR_ENC or BC_RD stored is what BC_WR and FR_DEC take up (42_pipeline.md R149). -/
theorem bits_bitlen_of_stored (h : v.toNat = bs.length) :
    ((s.writeBits bs).setBitlen v).finish.bits ((s.writeBits bs).setBitlen v).finish.bitlen.toNat = bs := by
  rw [State.finish_bitlen, State.setBitlen_bitlen, h, State.finish_bits, State.setBitlen_bits, bits_writeBits]

theorem toNat_bcRdCount : (BitVec.ofNat 32 s.bcRdCount).toNat = s.bcRdCount := by
  have hcount : s.bcRdCount < 2 ^ 32 := (min_le_left _ _).trans_lt s.clen.isLt
  rw [BitVec.toNat_ofNat, Nat.mod_eq_of_lt hcount]

/-- LSBs written after a sequence was stored are those written before it. -/
theorem carrierSame_putLsbs_of_stored (cs : List Bool) :
    CarrierSame (s.putLsbs cs) (((s.writeBits bs).setBitlen v).finish.putLsbs cs) := fun _ => rfl

/-- After a sequence was stored, a decode ends as before it, but for BITBUF and BITLEN. -/
theorem acceptParsed_of_stored (r : Except ErrCode (BitVec 16 × List Byte)) :
    ((s.writeBits bs).setBitlen v).finish.acceptParsed r =
      { s.acceptParsed r with bitbuf := (s.writeBits bs).bitbuf, bitlen := v } := by
  cases r <;> rfl

end Held

/-- FR_DEC after BC_RD ends as DECODE does, but for BITBUF and BITLEN: `parse` does not see that BC_RD truncates to
BITBUF_DEPTH (41_bit_channel.md R123 (c), 42_pipeline.md R149 (b)). -/
theorem exec_frDec_of_bcRd {s : State} (hparams : s.paramsOk) :
    ∃ u, exec .bcRd s = .next u ∧
      exec .frDec u = .next { s.acceptParsed (parse s.markerBits (s.carrierLsbs s.clen.toNat)) with
        bitbuf := u.bitbuf, bitlen := u.bitlen } := by
  obtain ⟨-, -, htruncate⟩ := bitChannelLaws
  have hv := (toNat_bcRdCount s).trans (length_carrierLsbs s _).symm
  refine ⟨_, exec_bcRd s, (exec_frDec _).trans ?_⟩
  rw [bits_bitlen_of_stored s _ _ hv, State.finish_markerBits, State.setBitlen_markerBits, State.writeBits_markerBits,
    acceptParsed_of_stored, State.bcRdCount, htruncate s hparams]
  rfl

/-! ### Updates that neither read nor write BITBUF and BITLEN -/

/-- The update `f` leaves BITBUF and BITLEN, and does the same whatever they hold (42_pipeline.md R146). -/
def IgnoresBitbuf (f : State → State) : Prop :=
  ∀ s bb bl, (f s).bitbuf = s.bitbuf ∧ (f s).bitlen = s.bitlen ∧
    f { s with bitbuf := bb, bitlen := bl } = { f s with bitbuf := bb, bitlen := bl }

theorem ignoresBitbuf_finish : IgnoresBitbuf State.finish := fun _ _ _ => ⟨rfl, rfl, rfl⟩

theorem ignoresBitbuf_setCap_finish (v : Word) : IgnoresBitbuf fun s => (s.setCap v).finish :=
  fun _ _ _ => ⟨rfl, rfl, rfl⟩

theorem ignoresBitbuf_raise (e : ErrCode) : IgnoresBitbuf fun s => s.raise e := fun _ _ _ => ⟨rfl, rfl, rfl⟩

theorem ignoresBitbuf_putLsbs_finish (bs : List Bool) : IgnoresBitbuf fun s => (s.putLsbs bs).finish :=
  fun _ _ _ => ⟨rfl, rfl, rfl⟩

theorem ignoresBitbuf_acceptParsed (r : Except ErrCode (BitVec 16 × List Byte)) :
    IgnoresBitbuf fun s => s.acceptParsed r :=
  fun _ _ _ => by cases r <;> exact ⟨rfl, rfl, rfl⟩

/-- A command that ends in such an update, the same one whatever BITBUF and BITLEN hold, ignores them. -/
theorem IgnoresBitbuf.exec_next {f : State → State} (hf : IgnoresBitbuf f) {i : Instr} {s : State}
    {bb : List (Nat × Bool)} {bl : Word} (h : exec i s = .next (f s))
    (h' : exec i { s with bitbuf := bb, bitlen := bl } = .next (f { s with bitbuf := bb, bitlen := bl })) :
    ∃ t, exec i s = .next t ∧ t.bitbuf = s.bitbuf ∧ t.bitlen = s.bitlen ∧
      exec i { s with bitbuf := bb, bitlen := bl } = .next { t with bitbuf := bb, bitlen := bl } := by
  obtain ⟨hbuf, hlen, hsame⟩ := hf s bb bl
  exact ⟨f s, h, hbuf, hlen, hsame ▸ h'⟩

/-! ### The obligations -/

/-- Settles O22: the LSBs that DECODE reads begin with the frame that ENCODE wrote. -/
theorem encodeDecodeRoundTrip : Obligations.EncodeDecodeRoundTrip := by
  intro s hfit
  have hroom := (le_available_iff _ _).mp hfit
  obtain ⟨F, hF, hlen, hexec⟩ := exec_encode_stores hroom
  refine ⟨_, hexec, fun t' hmarker hclen hsame => ?_⟩
  have hmarks : t'.markerBits = s.markerBits := congrArg bitsMsbFirst hmarker
  have hlsbs : t'.carrierLsbs t'.clen.toNat = F ++ (s.carrierLsbs s.clen.toNat).drop F.length :=
    calc t'.carrierLsbs t'.clen.toNat
        = t'.carrierLsbs s.clen.toNat := by rw [hclen, State.finish_clen, State.putLsbs, State.writeCarrier_clen]
      _ = (s.putLsbs F).carrierLsbs s.clen.toNat := carrierLsbs_congr hsame
      _ = F ++ (s.carrierLsbs s.clen.toNat).drop F.length := carrierLsbs_putLsbs s F _ (hlen.trans_le hroom)
  have hparse : parse t'.markerBits (t'.carrierLsbs t'.clen.toNat) = .ok (s.len, s.payloadBytes s.len.toNat) := by
    rw [hmarks, hlsbs, hF, parse_frame_operands_append]
  refine ⟨_, exec_decode t', ?_⟩
  rw [hparse, acceptParsed_finish]
  refine ⟨rfl, rfl, fun j hj => ?_⟩
  rw [State.finish_payloadByte, State.setLen_payloadByte, payloadByte_writePayload, getElem?_payloadBytes,
    if_pos hj, Option.getD_some]

/-- Settles O17, by integer division. -/
theorem capacityLaw : Obligations.CapacityLaw := le_available_iff

/-- Settles O16: the value fits its word, and no host access writes CAP. -/
theorem capacityWritesCap : Obligations.CapacityWritesCap := by
  refine ⟨by decide, fun s => ⟨_, exec_capacity s, toInt_available s.clen, rfl⟩, fun s u v t hn ht => ?_,
    fun c hc => ?_⟩
  · obtain ⟨rest, rfl, hstep⟩ := hostNext_dest hn
    obtain ⟨-, hcap⟩ := hostAccess_frame (s := { s with agenda := rest }) (.write32 0x10#32 v)
    rw [Host.Outcome.next.inj (ht.symm.trans hstep)]
    exact hcap
  · unfold available
    omega

/-- Settles O18: the LSBs begin with the frame that was written, or ENCODE raises before any write. -/
theorem encodeWritesTheFrame : Obligations.EncodeWritesTheFrame := by
  refine ⟨by decide, fun s hfit => ?_, exec_encode_refused⟩
  obtain ⟨F, hF, hlen, hexec⟩ := exec_encode_stores hfit
  have hc := exec_completes hexec
  obtain ⟨hm, hn, hp⟩ := (beginsWith_putLsbs s F).frame_operands hF
  obtain ⟨hupper, -⟩ := carrierByte_of_completes hc
  exact ⟨_, hexec, rfl, rfl, hm, hn, hp, hupper,
    fun i hi => carrierByte_putLsbs_of_le s (hlen.trans_le hi),
    constantsSame_of_completes hc, ownSame_of_completes hc, rfl, rfl, rfl, fun _ => rfl, fun _ => rfl⟩

/-- Settles O19: DECODE parses the LSBs of C[0..CLEN-1]. -/
theorem decodeParsesCarrier : Obligations.DecodeParsesCarrier := by
  have hlen (s : State) : (decodedBits .decode s).length = s.clen.toNat := length_carrierLsbs s _
  have hbits (s : State) : BeginsWith (lsbs s) (decodedBits .decode s) := beginsWith_carrierLsbs s _
  exact ⟨by decide, decodeSucceeds_of_beginsWith (by decide) hlen hbits,
    decodeFails_of_beginsWith (by decide) hlen hbits⟩

/-- Settles O20: NOP ends in `finish` alone. -/
theorem nopClearsErr : Obligations.NopClearsErr :=
  ⟨by decide, fun s => ⟨_, exec_nop s, rfl, State.finish_status s⟩⟩

/-- Settles O21: each outcome of each command is the same update of both states. -/
theorem pipelineIgnoresBitbuf : Obligations.PipelineIgnoresBitbuf := by
  intro i hi s bb bl
  simp only [List.mem_cons, List.not_mem_nil, or_false] at hi
  rcases hi with rfl | rfl | rfl | rfl
  · rcases Nat.lt_or_ge s.clen.toNat (frameBits s.len.toNat) with hc | hc
    · exact (ignoresBitbuf_raise _).exec_next (exec_encode_refused s hc) (exec_encode_refused _ hc)
    · exact (ignoresBitbuf_putLsbs_finish _).exec_next (exec_encode_fits s hc) (exec_encode_fits _ hc)
  · exact (ignoresBitbuf_acceptParsed _).exec_next (exec_decode s) (exec_decode _)
  · exact (ignoresBitbuf_setCap_finish _).exec_next (exec_capacity s) (exec_capacity _)
  · exact ignoresBitbuf_finish.exec_next (exec_nop s) (exec_nop _)

/-- Settles O23: by the capacity law ENCODE succeeds exactly when LEN is at most the available capacity. -/
theorem lengthBoundary : Obligations.LengthBoundary := by
  intro s
  have hlaw := le_available_iff s.len.toNat s.clen.toNat
  have hlen := s.len.isLt
  rcases Nat.lt_or_ge s.clen.toNat (frameBits s.len.toNat) with hc | hc
  · have hover : available s.clen.toNat < s.len.toNat := by omega
    exact ⟨_, exec_encode_refused s hc, fun _ _ => ⟨by omega, fun _ => ⟨rfl, fun _ => rfl⟩⟩, by omega,
      fun _ => ⟨rfl, fun _ => rfl⟩⟩
  · have hfits : (s.len.toNat : Int) ≤ available s.clen.toNat := hlaw.mpr hc
    exact ⟨_, exec_encode_fits s hc, fun _ _ => ⟨fun _ => rfl, by omega⟩, fun _ => rfl, by omega⟩

/-- Settles O24: (a) since BC_WR stores the very frame that FR_ENC held, (b) by `exec_frDec_of_bcRd`. -/
theorem pathsAgree : Obligations.PathsAgree := by
  refine ⟨fun s => ?_, fun s hparams => ?_⟩
  · obtain ⟨F, v, hF, hlen, hv, hframe⟩ := exec_frEnc_stores s
    have hread := bits_bitlen_of_stored s F v hv
    rcases Nat.lt_or_ge s.clen.toNat (frameBits s.len.toNat) with hc | hc
    · have hover : s.clen.toNat < v.toNat := hc.trans_eq (hlen.symm.trans hv.symm)
      exact ⟨_, _, _, exec_encode_refused s hc, hframe, exec_bcWr_refused _ hover, fun _ => rfl,
        fun hfit => absurd hfit (Nat.not_le.mpr hc),
        fun _ => ⟨rfl, State.raise_status s _, rfl, State.raise_status _ _, fun _ => rfl⟩⟩
    · have hfits : v.toNat ≤ s.clen.toNat := (hv.trans hlen).trans_le hc
      have hwrite := exec_bcWr_fits ((s.writeBits F).setBitlen v).finish hfits
      rw [hread] at hwrite
      have hencode := exec_encode_fits s hc
      rw [← hF] at hencode
      exact ⟨_, _, _, hencode, hframe, hwrite, carrierSame_putLsbs_of_stored s F v F, fun _ => ⟨rfl, rfl, rfl⟩,
        fun hover => absurd hc (Nat.not_le.mpr hover)⟩
  · obtain ⟨u, hread, hparse⟩ := exec_frDec_of_bcRd hparams
    exact ⟨_, _, _, exec_decode s, hread, hparse, fun _ => rfl, rfl, rfl, status_congr rfl rfl⟩

end Sys2Proof.Machine

/-!
Proofs of the statements about the errors (60_exceptions.md). `Raises` says for each command when it has cause to report
which error; every command ends by raising the one error it has a cause for, or with ERR = 0 when it has none, and from
this the statements about commands follow. The turns with no command in flight come last.
-/

namespace Sys2Proof.Machine

open Claims

/-! ### The causes of an error (60_exceptions.md R161) -/

/-- The error of the first check that fails on the `L` bits `b`, under the marker `m` (40_framer.md R102). -/
def ParseRaises (L : Nat) (b : Nat → Bool) (m : Word) : ErrCode → Prop
  | .malformedStream => L < 48
  | .notSteganographic => 48 ≤ L ∧ ¬ MarkerAt b m
  | .truncatedPayload => 48 ≤ L ∧ MarkerAt b m ∧ ∃ n, LengthAt b n ∧ L < 48 + 8 * n.toNat
  | .success | .capacityExceeded | .illegalCommand | .contractViolation => False

/-- The command has cause to report the error on `s`. -/
def Raises (s : State) : Instr → ErrCode → Prop
  | .frDec, e => ParseRaises s.bitlen.toNat s.bit s.marker e
  | .decode, e => ParseRaises s.clen.toNat (lsbs s) s.marker e
  | .bcWr, e => e = .contractViolation ∧ s.clen.toNat < s.bitlen.toNat
  | .encode, e => e = .capacityExceeded ∧ available s.clen.toNat < s.len.toNat
  | .nop, _ | .frEnc, _ | .bcRd, _ | .capacity, _ => False

section Causes

variable {s t : State} {i : Instr} {e : ErrCode} {b : Nat → Bool} {bs : List Bool} {m : Word}

theorem ParseRaises.mem {L : Nat} (h : ParseRaises L b m e) :
    e ∈ [ErrCode.notSteganographic, .malformedStream, .truncatedPayload] := by
  cases e
  case notSteganographic | malformedStream | truncatedPayload => decide
  all_goals exact h.elim

theorem BeginsWith.lengthAt_announced (h : BeginsWith b bs) (hl : 48 ≤ bs.length) :
    LengthAt b (BitVec.ofNat 16 (announced bs)) :=
  (h.lengthAt_iff hl _).mpr ((eq_bitsMsbFirst_iff (by rw [length_slice]; omega) _).mpr rfl)

/-- `parse` answers an error exactly when its check is the first that fails. -/
theorem BeginsWith.parse_eq_error_iff (h : BeginsWith b bs) :
    parse (bitsMsbFirst m) bs = .error e ↔ ParseRaises bs.length b m e := by
  constructor
  · intro hp
    rcases parse_error hp with ⟨rfl, hl⟩ | ⟨rfl, hl, hm⟩ | ⟨rfl, hl, hm, ht⟩
    · exact hl
    · exact ⟨hl, mt (h.markerAt_iff (by omega) m).mp hm⟩
    · have hn := h.lengthAt_announced hl
      exact ⟨hl, (h.markerAt_iff (by omega) m).mpr hm, _, hn, h.announced_eq hl hn ▸ ht⟩
  · intro hr
    cases e
    case malformedStream => exact parse_of_short _ hr
    case notSteganographic =>
      obtain ⟨hl, hm⟩ := hr
      exact h.parse_of_no_marker hl hm
    case truncatedPayload =>
      obtain ⟨hl, hm, n, hn, ht⟩ := hr
      exact h.parse_of_truncated hl hm hn ht
    all_goals exact hr.elim

/-- How a command ends on `s`: with ERR = 0 and no cause for an error, or by raising on `s` the one error it has a cause
for. -/
inductive Ends (s : State) (i : Instr) : State → Prop where
  | finished {t : State} (ht : t.err = .success) (h : ∀ e, ¬ Raises s i e) : Ends s i t
  | raised (e : ErrCode) (h : ∀ e', Raises s i e' ↔ e = e') : Ends s i (s.raise e)

/-- A decode ends by what `parse` answers on its bits. -/
theorem ends_acceptParsed (hb : BeginsWith b bs) (hr : ∀ e, Raises s i e ↔ ParseRaises bs.length b s.marker e) :
    Ends s i (s.acceptParsed (parse s.markerBits bs)) := by
  have hcause (e : ErrCode) : Raises s i e ↔ parse s.markerBits bs = .error e := (hr e).trans hb.parse_eq_error_iff.symm
  cases hp : parse s.markerBits bs with
  | error e => exact .raised e fun e' => by rw [hcause, hp, Except.error.injEq]
  | ok r => exact .finished rfl fun e => by rw [hcause, hp]; nofun

theorem exec_ends (h : exec i s = .next t) : Ends s i t := by
  cases i with
  | nop | frEnc | bcRd | capacity =>
    cases h
    exact .finished rfl fun _ => id
  | frDec =>
    cases (exec_frDec s).symm.trans h
    exact ends_acceptParsed (beginsWith_bits s _) fun e => by rw [length_bits, Raises]
  | decode =>
    cases (exec_decode s).symm.trans h
    exact ends_acceptParsed (beginsWith_carrierLsbs s _) fun e => by rw [length_carrierLsbs, Raises]
  | bcWr =>
    rcases Nat.lt_or_ge s.clen.toNat s.bitlen.toNat with hc | hc
    · cases (exec_bcWr_refused s hc).symm.trans h
      exact .raised _ fun e => (and_iff_left hc).trans eq_comm
    · cases (exec_bcWr_fits s hc).symm.trans h
      exact .finished rfl fun _ ⟨_, hr⟩ => absurd hr (Nat.not_lt.mpr hc)
  | encode =>
    have hlaw := le_available_iff s.len.toNat s.clen.toNat
    rcases Nat.lt_or_ge s.clen.toNat (frameBits s.len.toNat) with hc | hc
    · cases (exec_encode_refused s hc).symm.trans h
      have hover : available s.clen.toNat < s.len.toNat := by omega
      exact .raised _ fun e => (and_iff_left hover).trans eq_comm
    · cases (exec_encode_fits s hc).symm.trans h
      exact .finished rfl fun _ ⟨_, hr⟩ => absurd (hlaw.mpr hc) (Int.not_le.mpr hr)

/-- A command reports an error exactly when it has cause to. -/
theorem exec_err_eq_iff (h : exec i s = .next t) (he : e ≠ .success) : t.err = e ↔ Raises s i e := by
  cases exec_ends h with
  | finished ht hnone => exact iff_of_false (ht.trans_ne he.symm) (hnone e)
  | raised e' hcause => exact (hcause e).symm

theorem exec_err_ne_illegalCommand (h : exec i s = .next t) : t.err ≠ .illegalCommand := by
  rw [ne_eq, exec_err_eq_iff h (by decide)]
  cases i <;> simp [Raises, ParseRaises]

end Causes

/-! ### The obligations -/

/-- Settles O27: each command's causes, read by error; and a word in flight is rejected exactly when it fails to decode. -/
theorem errorCausesExact : Obligations.ErrorCausesExact := by
  refine ⟨fun i s t h => ?_, fun s u w t hn hp ht => ?_⟩
  · refine ⟨?_, ?_, ?_, ?_, ?_, exec_err_ne_illegalCommand h⟩
    all_goals
      rw [exec_err_eq_iff h (by decide)]
      cases i <;> simp [Raises, ParseRaises]
  · obtain ⟨rest, rfl, hstep⟩ := engineNext_dest hn
    rw [← decodeCommand_eq_error_iff_illegalWord]
    cases hd : decodeCommand w with
    | ok i =>
      have hexec := (engineTurn_of_command (s := { s with agenda := rest }) hp hd).symm.trans (hstep.symm.trans ht)
      exact iff_of_false (exec_err_ne_illegalCommand hexec) nofun
    | error e =>
      cases (engineTurn_of_illegal (s := { s with agenda := rest }) hp hd).symm.trans (hstep.symm.trans ht)
      exact iff_of_true rfl ⟨e, rfl⟩

/-- Settles O26: the errors for which each command can have cause. -/
theorem commandsRaiseOnlyTheirCodes : Obligations.CommandsRaiseOnlyTheirCodes := by
  refine ⟨by decide, errValue_le, fun i s => ?_⟩
  obtain ⟨t, ht⟩ := exec_next s i
  refine ⟨t, ht, ?_⟩
  cases exec_ends ht with
  | finished hsucc _ => rw [hsucc]; cases i <;> decide
  | raised e hcause =>
    have hr : Raises s i e := (hcause e).mpr rfl
    cases i with
    | frDec | decode => exact List.mem_cons_of_mem _ hr.mem
    | bcWr | encode =>
      obtain ⟨rfl, -⟩ := hr
      exact List.mem_cons_of_mem _ List.mem_cons_self
    | nop | frEnc | bcRd | capacity => exact hr.elim

/-- Settles O28: an error is raised on the state at issue. -/
theorem failedCommandChangesOnlyStatus : Obligations.FailedCommandChangesOnlyStatus := by
  intro i s t h herr
  cases exec_ends h with
  | finished hsucc _ => exact absurd hsucc herr
  | raised e _ => rfl

/-- Settles O29, by the cases of a step: of the host's accesses only an issue writes ERR. -/
theorem errKeptUntilIssueOrReset : Obligations.ErrKeptUntilIssueOrReset := by
  intro s t hp h
  rcases step_cases h with ⟨u, hu, ht⟩ | ⟨rest, ha, rfl⟩ | ⟨x, rest, ha, rfl⟩
  · obtain ⟨rest, rfl, -⟩ := engineNext_dest hu
    cases (engineTurn_of_idle (s := { s with agenda := rest }) hp).symm.trans ht
    exact .inl rfl
  · exact .inr ⟨rfl, .inr ⟨rest, ha⟩⟩
  · rcases hostAccess_cases { s with agenda := rest } x with ⟨r, d, hx⟩ | ⟨-, u, hx, hu⟩
    · rw [hx]; exact .inl rfl
    · rw [hx]
      rcases hu with ⟨w, rfl, rfl⟩ | ⟨n, rfl⟩ | ⟨v, -, rfl⟩ | ⟨v, -, rfl⟩ | ⟨j, v, -, rfl⟩ | ⟨k, b, -, rfl⟩ |
        ⟨i, v, -, rfl⟩
      · exact .inr ⟨rfl, .inl ⟨w, rest, ha⟩⟩
      all_goals exact .inl rfl

/-- Settles O47: the turn taken leaves PEND, so the Engine is idle. -/
theorem idleBlockChangesNothing : Obligations.IdleBlockChangesNothing := by
  intro s u hn hp
  obtain ⟨rest, rfl, hstep⟩ := engineNext_dest hn
  exact hstep.trans (engineTurn_of_idle hp)

end Sys2Proof.Machine

/-!
Proofs of the statements about reset and the hazards (70_reset_and_hazards.md). First what a read of each register gives
while a command is in flight; then the agenda, of which every step takes one turn, down to the end of the run.
-/

namespace Sys2Proof.Machine

open Claims

/-! ### The registers while a command is in flight (70_reset_and_hazards.md R194) -/

/-- The registers whose reads are unspecified while a command is in flight (10_state.md R24, R26, R27). -/
def volatileRegs : List Reg := [.len, .bitlen, .cap]

section Busy

variable {s u : State} {a : Word} {r : Reg}

theorem readReg_of_not_volatile (h : r ∉ volatileRegs) : s.readReg r = s.respond (.data32 (s.regValue r)) := by
  cases r
  case len | bitlen | cap => exact absurd (by decide) h
  all_goals rfl

theorem readReg_of_volatile (hp : s.pend ≠ none) (h : r ∈ volatileRegs) : s.readReg r = s.respondUnspecified := by
  have hv (v : Word) : s.respondVolatile v = s.respondUnspecified := if_pos (busy_iff_pend.mpr hp)
  simp only [volatileRegs, List.mem_cons, List.not_mem_nil, or_false] at h
  rcases h with rfl | rfl | rfl <;> exact hv _

theorem step_read32_of_not_volatile (hn : HostNext s (.read32 a) u) (hr : regAt a.toNat = some r)
    (h : r ∉ volatileRegs) : step s = .next (u.respond (.data32 (s.regValue r))) := by
  rw [step_read32_reg hn hr, readReg_of_not_volatile h, regValue_of_hostNext hn r]

theorem step_read32_of_volatile (hn : HostNext s (.read32 a) u) (hp : s.pend ≠ none) (hr : regAt a.toNat = some r)
    (h : r ∈ volatileRegs) : step s = .next u.respondUnspecified := by
  rw [step_read32_reg hn hr, readReg_of_volatile (pend_of_hostNext hn ▸ hp) h]

theorem regAt_volatile (h : a ∈ [0x0C#32, 0x14#32, 0x18#32]) : ∃ r ∈ volatileRegs, regAt a.toNat = some r := by
  simp only [List.mem_cons, List.not_mem_nil, or_false] at h
  rcases h with rfl | rfl | rfl
  exacts [⟨.len, by decide, rfl⟩, ⟨.bitlen, by decide, rfl⟩, ⟨.cap, by decide, rfl⟩]

theorem step_read32_of_no_reg (hn : HostNext s (.read32 a) u) (h : ¬ (a.toNat < 0x24 ∧ a.toNat % 4 = 0)) :
    step s = .next (u.respond .buserr) := by
  rw [step_of_hostNext hn, hostAccess_read32_of_no_reg (mt (regAt_isSome_iff _).mp h)]

/-- Every byte access is refused while a command is in flight. -/
theorem step_byte_of_busy {b : Byte} {x : Access} (hx : x = .read8 a ∨ x = .write8 a b) (hn : HostNext s x u)
    (hp : s.pend ≠ none) : step s = .next (u.respond .buserr) := by
  obtain ⟨hread, hwrite⟩ := hostAccess_byte_refused (s := u) (a := a) b fun ⟨hidle, _⟩ =>
    hp ((pend_of_hostNext hn).symm.trans hidle)
  rw [step_of_hostNext hn]
  rcases hx with rfl | rfl
  · rw [hread]
  · rw [hwrite]

theorem status_of_busy (hp : s.pend ≠ none) (he : s.err = .success) : s.status = 0x00000001#32 :=
  (status_of he (busy_iff_pend.mpr hp)).trans (by decide)

end Busy

/-! ### The agenda and the end of the run -/

section Agenda

variable {s : State}

theorem withAgenda_eq_self {a : List Turn} (h : s.agenda = a) : { s with agenda := a } = s := by
  rw [← h]

/-- After the Engine's turn no command is in flight, and the agenda is as before. -/
theorem engineTurn_dest (s : State) : ∃ t, engineTurn s = .next t ∧ t.pend = none ∧ t.agenda = s.agenda := by
  cases hp : s.pend with
  | none => exact ⟨s, engineTurn_of_idle hp, hp, rfl⟩
  | some w =>
    cases hd : decodeCommand w with
    | error e => exact ⟨_, engineTurn_of_illegal hp hd, rfl, rfl⟩
    | ok i =>
      obtain ⟨t, ht⟩ := exec_next s i
      have hc := exec_completes ht
      obtain ⟨-, -, hagenda, -⟩ := ownSame_of_completes hc
      exact ⟨t, (engineTurn_of_command hp hd).trans ht, pend_of_completes hc, hagenda⟩

theorem hostAccess_agenda (s : State) (x : Access) : (s.hostAccess x).agenda = s.agenda := by
  rcases hostAccess_cases s x with ⟨r, d, hx⟩ | ⟨-, u, hx, hu⟩
  · rw [hx]
  · rw [hx, State.respond_agenda]
    rcases hu with ⟨w, -, rfl⟩ | ⟨n, rfl⟩ | ⟨v, -, rfl⟩ | ⟨v, -, rfl⟩ | ⟨j, v, -, rfl⟩ | ⟨k, b, -, rfl⟩ | ⟨i, v, -, rfl⟩ <;>
      rfl

/-- A step takes one turn off the agenda, whatever that turn is. -/
theorem step_takes_turn {a : Turn} {rest : List Turn} (h : s.agenda = a :: rest) :
    ∃ t, step s = .next t ∧ t.agenda = rest := by
  cases a with
  | access x => exact ⟨_, step_of_access h, hostAccess_agenda { s with agenda := rest } x⟩
  | reset => exact ⟨_, step_of_reset h, rfl⟩
  | engine =>
    obtain ⟨t, ht, -, hagenda⟩ := engineTurn_dest { s with agenda := rest }
    exact ⟨t, (step_of_engine h).trans ht, hagenda⟩

/-- When the host is done the next turn is the Engine's, and the host stays done (70_reset_and_hazards.md R199). -/
theorem engineNext_of_hostDone (h : s.hostDone = true) :
    EngineNext s { s with agenda := s.agenda.tail } ∧ State.hostDone { s with agenda := s.agenda.tail } = true := by
  cases ha : s.agenda with
  | nil =>
    rw [List.tail_nil, withAgenda_eq_self ha]
    exact ⟨.inl ⟨ha, rfl⟩, h⟩
  | cons turn rest =>
    cases turn with
    | engine => exact ⟨.inr ⟨ha, rfl⟩, (hostDone_of_engine s ha).symm.trans h⟩
    | access x => exact absurd ((hostDone_of_access s ha).symm.trans h) Bool.false_ne_true
    | reset => exact absurd ((hostDone_of_reset s ha).symm.trans h) Bool.false_ne_true

/-- The turns of the agenda and then one of the Engine's lead to the end of the run, by induction on the agenda. -/
theorem run_agenda_reaches_end (a : List Turn) (s : State) (ha : s.agenda = a) :
    ∃ t, Sys2Proof.core.run (a.length + 1) s = .next t ∧ t.agenda = [] ∧ t.atEnd := by
  induction a generalizing s with
  | nil =>
    obtain ⟨t, ht, hp, hagenda⟩ := engineTurn_dest s
    have hnil : t.agenda = [] := hagenda.trans ha
    exact ⟨t, run_succ 0 ((step_of_nil ha).trans ht), hnil, hostDone_of_nil t hnil, hp⟩
  | cons turn rest ih =>
    obtain ⟨u, hstep, hu⟩ := step_takes_turn ha
    obtain ⟨t, hrun, hend⟩ := ih u hu
    exact ⟨t, (run_succ _ hstep).trans hrun, hend⟩

end Agenda

/-! ### The obligations -/

/-- Settles O38: a step lemma for each kind of access; the turn taken changes no register and no draw. -/
theorem busyWindowResponses : Obligations.BusyWindowResponses := by
  intro s u hp he
  refine ⟨fun hn => ?_, fun hn => step_read32_of_not_volatile (r := .marker) hn rfl (by decide),
    fun hn => step_read32_of_not_volatile (r := .clen) hn rfl (by decide),
    fun hn => step_read32_of_not_volatile (r := .carrierMax) hn rfl (by decide),
    fun hn => step_read32_of_not_volatile (r := .bitbufDepth) hn rfl (by decide),
    fun hn => step_read32_of_not_volatile (r := .cmd) hn rfl (by decide), fun a ha hn => ?_,
    fun _ _ hn => step_write32_of_busy hn hp, fun _ hn => step_byte_of_busy (b := 0#8) (.inl rfl) hn hp,
    fun _ _ hn => step_byte_of_busy (.inr rfl) hn hp, fun _ ha hn => step_read32_of_no_reg hn ha, fun rest ha => ?_⟩
  · rw [← status_of_busy hp he]
    exact step_read32_of_not_volatile (r := .status) hn rfl (by decide)
  · obtain ⟨r, hvolatile, hr⟩ := regAt_volatile ha
    have hstep := step_read32_of_volatile hn hp hr hvolatile
    obtain ⟨rest, rfl, -⟩ := hostNext_dest hn
    exact hstep
  · exact ⟨_, step_of_reset ha, rfl, State.resetBlock_status _, rfl, rfl, rfl, rfl, rfl⟩

/-- Settles O48, by `run_agenda_reaches_end`. -/
theorem everyRunReachesItsEnd : Obligations.EveryRunReachesItsEnd := fun s => run_agenda_reaches_end s.agenda s rfl

/-- Settles O49: the next turn is the Engine's, and the block is idle. -/
theorem endOfRunIsFinal : Obligations.EndOfRunIsFinal := by
  rintro s ⟨hdone, hp⟩
  obtain ⟨hnext, hdone'⟩ := engineNext_of_hostDone hdone
  exact ⟨_, idleBlockChangesNothing s _ hnext hp, rfl, hdone', hp⟩

/-- Settles O51: after a reset no memory element is listed, so each reads as its free value in the new epoch. -/
theorem resetTurn : Obligations.ResetTurn := fun _ _ ha =>
  ⟨_, step_of_reset ha, rfl, rfl, rfl, State.resetBlock_status _, rfl, rfl, rfl, rfl, rfl,
    fun _ => rfl, fun _ => rfl, fun _ => rfl, rfl, rfl, rfl⟩

end Sys2Proof.Machine

/-!
Proof of the statement about the canonical form of the memories (log entry 11): the first entry stands for the least
element that does not read as its unlisted value, so the reads determine the list, entry by entry.
-/

namespace Sys2Proof.Machine

/-! ### What the canonical form says of the reads -/

section CanonicalForm

variable {α : Type} {fill : Nat → α}

@[simp] theorem Memory.read_cons_self (k : Nat) (v : α) (m : List (Nat × α)) :
    Memory.read fill ((k, v) :: m) k = v := if_pos rfl

theorem Memory.read_cons_of_ne {k a : Nat} (v : α) (m : List (Nat × α)) (h : k ≠ a) :
    Memory.read fill ((k, v) :: m) a = Memory.read fill m a := if_neg h

variable [DecidableEq α]

theorem Memory.wfFrom_cons_iff {lo k : Nat} {v : α} {m : List (Nat × α)} :
    Memory.wfFrom fill lo ((k, v) :: m) = true ↔ lo ≤ k ∧ v ≠ fill k ∧ Memory.wfFrom fill (k + 1) m = true := by
  simp only [Memory.wfFrom, Bool.and_eq_true, decide_eq_true_eq, and_assoc]

/-- Below the lower bound of a canonical memory nothing is listed. -/
theorem Memory.read_of_lt_lo {lo a : Nat} {m : List (Nat × α)} (h : Memory.wfFrom fill lo m = true) (ha : a < lo) :
    Memory.read fill m a = fill a := by
  induction m generalizing lo with
  | nil => rfl
  | cons c m ih =>
    obtain ⟨k, v⟩ := c
    obtain ⟨hk, -, hm⟩ := Memory.wfFrom_cons_iff.mp h
    rw [Memory.read_cons_of_ne v m (by omega)]
    exact ih hm (by omega)

/-- A canonical memory that reads as one whose first entry is `k` lists some element up to `k`, for `k` does not read as
its unlisted value. -/
theorem Memory.not_wfFrom_succ_of_read_eq {lo k : Nat} {v : α} {m m' : List (Nat × α)}
    (h : Memory.wfFrom fill lo ((k, v) :: m) = true)
    (hread : ∀ a, Memory.read fill ((k, v) :: m) a = Memory.read fill m' a) :
    ¬ Memory.wfFrom fill (k + 1) m' = true := by
  intro h'
  obtain ⟨-, hv, -⟩ := Memory.wfFrom_cons_iff.mp h
  apply hv
  calc v = Memory.read fill ((k, v) :: m) k := (Memory.read_cons_self k v m).symm
    _ = Memory.read fill m' k := hread k
    _ = fill k := Memory.read_of_lt_lo h' (Nat.lt_succ_self k)

/-- Two canonical memories with the same first entry and the same reads have the same reads without that entry. -/
theorem Memory.read_tail_eq {k : Nat} {v : α} {m m' : List (Nat × α)}
    (h : Memory.wfFrom fill (k + 1) m = true) (h' : Memory.wfFrom fill (k + 1) m' = true)
    (hread : ∀ a, Memory.read fill ((k, v) :: m) a = Memory.read fill ((k, v) :: m') a) (a : Nat) :
    Memory.read fill m a = Memory.read fill m' a := by
  by_cases ha : k = a
  · subst ha
    rw [Memory.read_of_lt_lo h (Nat.lt_succ_self k), Memory.read_of_lt_lo h' (Nat.lt_succ_self k)]
  · rw [← Memory.read_cons_of_ne v m ha, ← Memory.read_cons_of_ne v m' ha]
    exact hread a

/-- The reads determine a canonical memory, by induction on its entries: neither first entry can come before the other. -/
theorem Memory.eq_of_read_eq {lo : Nat} {m m' : List (Nat × α)} (h : Memory.wfFrom fill lo m = true)
    (h' : Memory.wfFrom fill lo m' = true) (hread : ∀ a, Memory.read fill m a = Memory.read fill m' a) : m = m' := by
  induction m generalizing lo m' with
  | nil =>
    cases m' with
    | nil => rfl
    | cons c' m' => exact absurd rfl (Memory.not_wfFrom_succ_of_read_eq h' fun a => (hread a).symm)
  | cons c m ih =>
    obtain ⟨k, v⟩ := c
    obtain ⟨-, hv, hm⟩ := Memory.wfFrom_cons_iff.mp h
    cases m' with
    | nil => exact absurd rfl (Memory.not_wfFrom_succ_of_read_eq h hread)
    | cons c' m' =>
      obtain ⟨k', v'⟩ := c'
      obtain ⟨-, hv', hm'⟩ := Memory.wfFrom_cons_iff.mp h'
      rcases Nat.lt_trichotomy k k' with hlt | rfl | hlt
      · exact absurd (Memory.wfFrom_cons_iff.mpr ⟨hlt, hv', hm'⟩) (Memory.not_wfFrom_succ_of_read_eq h hread)
      · have hvalue : v = v' := by simpa using hread k
        subst hvalue
        rw [ih hm hm' (Memory.read_tail_eq hm hm' hread)]
      · exact absurd (Memory.wfFrom_cons_iff.mpr ⟨hlt, hv, hm⟩)
          (Memory.not_wfFrom_succ_of_read_eq h' fun a => (hread a).symm)

end CanonicalForm

/-- Settles O55, by `Memory.eq_of_read_eq` from the lower bound 0. -/
theorem canonicalMemoriesEqual : Obligations.CanonicalMemoriesEqual := fun _ _ _ _ _ h h' hread =>
  Memory.eq_of_read_eq h h' hread

end Sys2Proof.Machine
